-- ==== Sys2Proof/Word.lean ====
section
/-! DEFINITION. The word types of the DX48's formats (chapter 9): a byte, a two-byte and a four-byte field. -/

namespace Sys2Proof

/-- One byte of a packet, record or report. -/
abbrev Byte := BitVec 8

/-- A two-byte field: generations, counters, coordinates as sent (section 9.5). -/
abbrev Half := BitVec 16

/-- A four-byte field: epochs and the frame counter (section 9.5). -/
abbrev Word := BitVec 32

end Sys2Proof
end

