-- ==== Sys2Proof/Syntax.lean ====
section
/-! DEFINITION. The commands of the DX48: one constructor of `Instr` for each row of spec/opcode_table.json, with the
operands a sender gives it. Parameters stand at their encoded width (R169), so that an undefined encoding or an
out-of-range value reaches the rule that refuses it. -/

namespace Sys2Proof

/-- The two links (07, R145): identical, and independent. -/
inductive Link where
  | a
  | b
deriving DecidableEq, Repr

/-- The other link. -/
def Link.other : Link → Link
  | .a => .b
  | .b => .a

/-- One value for each link. -/
structure PerLink (α : Type) where
  a : α
  b : α
deriving DecidableEq, Repr

/-- The value a link has. -/
def PerLink.get {α : Type} (p : PerLink α) : Link → α
  | .a => p.a
  | .b => p.b

/-- Give a link a new value and leave the other's as it is. -/
def PerLink.set {α : Type} (p : PerLink α) (l : Link) (x : α) : PerLink α :=
  match l with
  | .a => { p with a := x }
  | .b => { p with b := x }

/-- A set of links: the ack set, the late set (R54, R58). -/
abbrev LinkSet := PerLink Bool

/-- A 24-bit colour, a (red, green, blue) triple (R1). -/
structure Colour where
  red : Byte
  green : Byte
  blue : Byte
deriving DecidableEq, Repr

/-- Black, (0, 0, 0). -/
def Colour.black : Colour := ⟨0, 0, 0⟩

/-- The region record as a STAGE-REGION parameter carries it (section 9.4), fields 1 to 11 unchecked. -/
structure RegionRecord where
  tag : Byte
  owner : Byte
  kind : Byte
  buffering : Byte
  col0 : Half
  width : Half
  row0 : Half
  height : Half
  orientation : Byte
  fill : Colour
  touch : Byte
deriving DecidableEq, Repr

/-- A LINE packet (section 9.2). Its count field is the length of `pixels` (R168, log 17). -/
structure Line where
  tag : Byte
  frameTag : Byte
  epoch : Word
  row : Half
  offset : Half
  pixels : List Colour
deriving DecidableEq, Repr

/-- The seven parameters of SET-HINGE in the order they are sent (R37). -/
structure HingeFields where
  foldEnter : Half
  foldExit : Half
  flatExit : Half
  flatEnter : Half
  dwell : Byte
  zero : Half
  timeout : Byte
deriving DecidableEq, Repr

/-- One entry of a touch report as read from the touch controller (section 9.7). -/
structure TouchEntry where
  id : Byte
  event : Byte
  tx : Half
  ty : Half
deriving DecidableEq, Repr

/-- The commands of the part: one constructor per row of spec/opcode_table.json. `link` is the link a packet arrives
on; `tag` of a COMMAND is the processor's own tag (R151). -/
inductive Instr where
  /-- POWER_ON_RESET (R24). -/
  | powerOnReset
  /-- RESET_INPUT (R78): the RESET input is asserted. -/
  | resetInput
  /-- RESET_END (R105): the reset ends; `cutoff` and `touchReady` are the levels of CUTOFF and TOUCH_READY then. -/
  | resetEnd (cutoff touchReady : Bool)
  /-- PROTECT_PULSE (R23): a falling edge of PROTECT. -/
  | protectPulse
  /-- CUTOFF_ASSERT (R119): CUTOFF changes from released to asserted. -/
  | cutoffAssert
  /-- HINGE_FALL (R26), `ticks` microseconds after the rising edge that began the period. -/
  | hingeFall (ticks : Nat)
  /-- HINGE_RISE (R26), `ticks` microseconds after the earlier rising edge. `abortsFirst` names the links whose armed
  AT_POSTURE abort is taken before the completion of their WAIT, should both fall due (R155). -/
  | hingeRise (ticks : Nat) (abortsFirst : LinkSet)
  /-- SENSOR_TIMEOUT (R33): the running sensor timeout expires. -/
  | sensorTimeout
  /-- FRAME_START (R106). `abortsFirst` names the links whose armed AT_FRAME abort is taken before the rest of the
  handling of the frame start (R67, R155). -/
  | frameStart (abortsFirst : LinkSet)
  /-- ACK_WINDOW_EXPIRY (R58): the frame start at which the ack window counter falls to 0. -/
  | ackWindowExpiry
  /-- QUIET_DETECT (R148): the frame start at which the link's quiet counter reaches QUIET_FRAMES. -/
  | quietDetect (link : Link)
  /-- WAIT_FRAME_DONE (R153): the frame start at which the link's WAIT for FRAME completes. -/
  | waitFrameDone (link : Link)
  /-- ROW_SCAN (R108): the current row is built and sent. -/
  | rowScan
  /-- BAD_PACKET (R145): bytes as they arrive on the link, put through the checks of R145. -/
  | badPacket (link : Link) (bytes : List Byte)
  /-- LINE (R149). -/
  | line (link : Link) (packet : Line)
  /-- BEGIN mark (R92). -/
  | beginMark (link : Link) (region : Byte) (epoch : Word)
  /-- END mark (R93). -/
  | endMark (link : Link) (region : Byte) (epoch : Word)
  /-- A COMMAND whose code names no command (R151). -/
  | unknownCommand (link : Link) (tag code : Byte)
  /-- STAGE-OPEN (R10). -/
  | stageOpen (link : Link) (tag slot : Byte) (backdrop : Colour)
  /-- STAGE-REGION (R11). -/
  | stageRegion (link : Link) (tag : Byte) (record : RegionRecord)
  /-- STAGE-COMMIT (R12). -/
  | stageCommit (link : Link) (tag : Byte)
  /-- STAGE-DROP (R17). -/
  | stageDrop (link : Link) (tag : Byte)
  /-- SLOT-READ (R18). -/
  | slotRead (link : Link) (tag slot index : Byte)
  /-- SLOTS-OPEN (R20). -/
  | slotsOpen (link : Link) (tag low high outside : Byte)
  /-- SLOTS-CLOSE (R21). -/
  | slotsClose (link : Link) (tag : Byte)
  /-- SLOTS-FREEZE (R22). -/
  | slotsFreeze (link : Link) (tag : Byte)
  /-- SET-HINGE (R37). -/
  | setHinge (link : Link) (tag : Byte) (fields : HingeFields)
  /-- SET-FACE (R39). -/
  | setFace (link : Link) (tag face : Byte)
  /-- BIND (R40). -/
  | bind (link : Link) (tag posture face slot : Byte)
  /-- POSTURE-READ (R45). -/
  | postureRead (link : Link) (tag : Byte)
  /-- HINGE-SNAPSHOT (R36). -/
  | hingeSnapshot (link : Link) (tag : Byte)
  /-- SWITCH (R50). -/
  | switch (link : Link) (tag slot : Byte)
  /-- SET-ACK-WINDOW (R77). -/
  | setAckWindow (link : Link) (tag n : Byte)
  /-- ACK-EPOCH (R56). -/
  | ackEpoch (link : Link) (tag : Byte) (epoch : Word)
  /-- REGION-CLEAR (R98). -/
  | regionClear (link : Link) (tag region which : Byte)
  /-- REGION-STATUS (R102). -/
  | regionStatus (link : Link) (tag region : Byte)
  /-- SET-RATE (R107). -/
  | setRate (link : Link) (tag rate : Byte)
  /-- RESUME (R121); `cutoff` is the level of the CUTOFF input when the command is taken. -/
  | resume (link : Link) (tag : Byte) (cutoff : Bool)
  /-- SET-TOUCH-CAL (R130); `ox` and `oy` are signed. -/
  | setTouchCal (link : Link) (tag : Byte) (gx gy ox oy : Half)
  /-- SET-QUIET (R148). -/
  | setQuiet (link : Link) (tag n : Byte)
  /-- WAIT (R153). -/
  | wait (link : Link) (tag event n : Byte)
  /-- ABORT (R154). -/
  | abort (link : Link) (tag condition quiet : Byte)
  /-- PORT-RESET (R156). -/
  | portReset (link : Link) (tag : Byte)
  /-- STATUS (R166). -/
  | status (link : Link) (tag : Byte)
  /-- FETCH (R163). -/
  | fetch (link : Link) (tag : Byte)
  /-- TOUCH_READ_START (R126): TOUCH_READY is high while the port is IDLE. -/
  | touchReadStart
  /-- TOUCH_READ_TIMEOUT (R126); `touchReady` is the level of TOUCH_READY when the port becomes IDLE. -/
  | touchReadTimeout (touchReady : Bool)
  /-- TOUCH_REPORT (R128): the report's count byte and the entries read; `touchReady` as for TOUCH_READ_TIMEOUT. -/
  | touchReport (count : Byte) (entries : List TouchEntry) (touchReady : Bool)
  /-- RESPONSE_SENT (R152): the port finishes sending the oldest produced response. -/
  | responseSent (link : Link)
deriving DecidableEq, Repr

end Sys2Proof
end

