-- ==== Sys2Proof/Config.lean ====
section
/-! DEFINITION. What the spec fixes for every DX48: sizes, limits and power-on settings. -/

namespace Sys2Proof.Config

/-- Panel columns (R1). -/
def panelColumns : Nat := 2480

/-- Panel rows (R1). -/
def panelRows : Nat := 2200

/-- Store blocks (R80). -/
def storeBlocks : Nat := 1536

/-- Pixels in a store block (R80). -/
def blockPixels : Nat := 4096

/-- Most regions in a layout (R11). -/
def maxRegions : Nat := 8

/-- Most lines in a stream queue (R150). -/
def streamDepth : Nat := 48

/-- Stream depth at which HOLD is asserted (R150). -/
def holdAssert : Nat := 40

/-- Stream depth at which HOLD is released (R150). -/
def holdRelease : Nat := 32

/-- Most notices in a queue (R159). -/
def noticeDepth : Nat := 32

/-- Most MOVE notices in a queue (R159). -/
def moveDepth : Nat := 24

/-- Most notices one FETCH returns (R163). -/
def fetchMost : Nat := 8

/-- Responses held at which a further command is discarded (R151). -/
def responseRoom : Nat := 8

/-- Largest forward payload in bytes, a LINE of 2480 pixels (R168). -/
def maxPayload : Nat := 7452

/-- Largest panel touch coordinates in sixteenths of a pixel (R129). -/
def maxX16 : Int := 39679

/-- See `maxX16`. -/
def maxY16 : Int := 35199

/-- What a store pixel reads as that nothing has written. DESIGN CHOICE, unsafe (log 12): the spec gives the DRAM no
power-on content, and no rule shows it, since a placed buffer has no valid row (R80). -/
def unwrittenPixel : Colour := Colour.black

end Sys2Proof.Config
end

