-- ==== Sys2Proof/Machine/State.lean ====
section
/-! DEFINITION. The state of the DX48 as plain data, block by block, and the machine right after a power-on reset. -/

namespace Sys2Proof.Machine

/-! ## Names the spec gives its values -/

/-- A slot number, 0 to 7 (section 1.3). -/
abbrev SlotNo := Fin 8

/-- A touch id, 0 to 9 (R133). -/
abbrev TouchId := Fin 10

/-- Kind and buffering of a region in one value: STREAMED, STORED SINGLE or STORED DOUBLE, the three that R3 lets
pass (log 22). -/
inductive Content where
  | streamed
  | single
  | double
deriving DecidableEq, Repr

/-- Orientation (section 1.2). -/
inductive Orientation where
  | upright
  | turned
deriving DecidableEq, Repr

/-- The touch field (section 1.2). -/
inductive TouchSetting where
  | ignore
  | route
deriving DecidableEq, Repr

/-- Posture (section 2.4). -/
inductive Posture where
  | unknown
  | folded
  | part
  | flat
deriving DecidableEq, Repr

/-- Face (R39). -/
inductive Face where
  | front
  | rear
deriving DecidableEq, Repr

/-- Sensor state (R33). -/
inductive Sensor where
  | none
  | ok
  | lost
deriving DecidableEq, Repr

/-- A binding table entry (R40). -/
inductive Binding where
  | hold
  | slot (n : SlotNo)
deriving DecidableEq, Repr

/-- The desired slot (R41): none while the posture is UNKNOWN. -/
inductive Desired where
  | none
  | hold
  | slot (n : SlotNo)
deriving DecidableEq, Repr

/-- Outcome of follow evaluation (R42). -/
inductive FollowOutcome where
  | announced
  | none
  | hold
  | storeFull
  | exhausted
deriving DecidableEq, Repr

/-- Reason of a POSTURE notice (R44). -/
inductive PostureReason where
  | posture
  | face
  | bind
deriving DecidableEq, Repr

/-- Cause of an announcement (R54). -/
inductive Cause where
  | posture
  | face
  | bind
  | switchBy (l : Link)
deriving DecidableEq, Repr

/-- Transition state (R47). -/
inductive TransitionState where
  | steady
  | announced
  | armed
deriving DecidableEq, Repr

/-- Reason of a withdrawal (R62). -/
inductive WithdrawReason where
  | superseded
  | aborted
deriving DecidableEq, Repr

/-- Use of a slot (R8). -/
inductive SlotUse where
  | none
  | active
  | pending
deriving DecidableEq, Repr

/-- Membership of a runtime record (R69), and so the role of its runs (R81). -/
inductive Membership where
  | active
  | pending
  | both
deriving DecidableEq, Repr

/-- Gate of a region (section 3.8). -/
inductive Gate where
  | closed
  | opened
deriving DecidableEq, Repr

/-- Back state of a DOUBLE region (section 4.4). -/
inductive BackState where
  | idle
  | writing
  | complete
deriving DecidableEq, Repr

/-- Buffer label (R80). -/
inductive Label where
  | a
  | b
deriving DecidableEq, Repr

/-- Cutoff latch (section 5.4). -/
inductive Latch where
  | clear
  | latched
  | clearDue
deriving DecidableEq, Repr

/-- Refresh rate (R107). -/
inductive Rate where
  | hz60
  | hz90
  | hz120
deriving DecidableEq, Repr

/-- Port state (section 7.2). -/
inductive PortState where
  | offline
  | online
  | quiet
deriving DecidableEq, Repr

/-- Condition of an armed abort (R154). -/
inductive ArmCondition where
  | atFrame
  | atPosture
deriving DecidableEq, Repr

/-- Which buffers a REGION-CLEAR names (R98). -/
inductive Which where
  | front
  | back
  | both
deriving DecidableEq, Repr

/-- Reason of a CANCEL notice (R138). -/
inductive CancelReason where
  | switch
  | cutoff
deriving DecidableEq, Repr

/-- DOWN, MOVE or UP: the event of a report entry (section 9.7) and the kind of a touch notice (R138). -/
inductive TouchKind where
  | down
  | move
  | up
deriving DecidableEq, Repr

/-! ## Slot table (chapter 1) -/

/-- A checked region record, the unit a layout holds (section 1.2). -/
structure Region where
  tag : Nat
  owner : Option Link
  content : Content
  col0 : Nat
  width : Nat
  row0 : Nat
  height : Nat
  orientation : Orientation
  fill : Colour
  touch : TouchSetting
deriving DecidableEq, Repr

/-- What a slot holds (section 1.3). -/
structure Layout where
  generation : Half
  backdrop : Colour
  regions : List Region
deriving DecidableEq, Repr

/-- A slot never committed since power-on (R5). -/
def Layout.blank : Layout := { generation := 0, backdrop := Colour.black, regions := [] }

/-- An OPEN staging area (R9). -/
structure Staging where
  slot : SlotNo
  backdrop : Colour
  records : List Region
deriving DecidableEq, Repr

/-- The slot table (R5, R9, R19, R22). A staging area that is `none` is CLOSED. -/
structure SlotTable where
  slots : Vector Layout 8
  low : SlotNo
  high : SlotNo
  outside : Bool
  freeze : Bool
  staging : PerLink (Option Staging)
deriving DecidableEq, Repr

/-! ## Posture monitor (chapter 2) -/

/-- The hinge settings (R37). -/
structure HingeSettings where
  foldEnter : Nat
  foldExit : Nat
  flatExit : Nat
  flatEnter : Nat
  dwell : Nat
  zero : Nat
  timeout : Nat
deriving DecidableEq, Repr

/-- The defaults of R46. -/
def HingeSettings.default : HingeSettings :=
  { foldEnter := 250, foldExit := 350, flatExit := 1600, flatEnter := 1700, dwell := 6, zero := 0, timeout := 20 }

/-- The record the snapshot latch holds (R35): P, W, A, H and F. -/
structure Snapshot where
  period : Nat
  high : Nat
  angle : Nat
  hinge : Nat
  filtered : Nat
deriving DecidableEq, Repr

/-- The filter window while it is full (R29), oldest value first. -/
structure Window where
  h1 : Nat
  h2 : Nat
  h3 : Nat
  h4 : Nat
deriving DecidableEq, Repr

/-- A hinge period being measured (R26): the high time once the falling edge has come. -/
structure Measurement where
  high : Option Nat
deriving DecidableEq, Repr

/-- The last H and F (R29). -/
structure LastValues where
  hinge : Nat
  filtered : Nat
deriving DecidableEq, Repr

/-- The binding table (R40). -/
structure Bindings where
  foldedFront : Binding
  foldedRear : Binding
  partFront : Binding
  partRear : Binding
  flatFront : Binding
  flatRear : Binding
deriving DecidableEq, Repr

/-- Every binding HOLD (R46). -/
def Bindings.allHold : Bindings := ⟨.hold, .hold, .hold, .hold, .hold, .hold⟩

/-- The posture monitor (section 2). `counting` is the counted candidate; `running` the length of the running sensor
timeout in milliseconds (R33, R38). -/
structure PostureMonitor where
  measurement : Option Measurement
  rejects : Half
  window : Option Window
  last : Option LastValues
  posture : Posture
  dwellCount : Nat
  counting : Option Posture
  face : Face
  sensor : Sensor
  running : Option Nat
  snapshot : Option Snapshot
  bindings : Bindings
  stalled : Bool
  settings : HingeSettings
deriving DecidableEq, Repr

/-! ## Transition engine and region store (chapters 3 and 4) -/

/-- One buffer: its label, its run of blocks (R81) and its row-valid map (R87). -/
structure Buffer where
  label : Label
  first : Nat
  count : Nat
  valid : List Bool
deriving DecidableEq, Repr

/-- The buffers of a STORED region and what the store keeps with them (section 4): `back` is there for DOUBLE alone. -/
structure Buffers where
  front : Buffer
  back : Option Buffer
  backState : BackState
  flipped : Bool
  clearDue : Option Label
deriving DecidableEq, Repr

/-- A region runtime record (R69). `buffers` is there for STORED regions alone. -/
structure RuntimeRecord where
  region : Region
  membership : Membership
  gate : Gate
  entryEpoch : Word
  buffers : Option Buffers
deriving DecidableEq, Repr

/-- The header of the active layout; no slot means EMPTY (R7). Its region list is that of the active records. -/
structure ActiveLayout where
  slot : Option SlotNo
  generation : Half
  backdrop : Colour
deriving DecidableEq, Repr

/-- EMPTY (R7). The spec gives EMPTY no generation; the 0 here is a DESIGN CHOICE (log 27), and nothing reads it. -/
def ActiveLayout.empty : ActiveLayout := { slot := none, generation := 0, backdrop := Colour.black }

/-- A pending transition (section 3.1). `armed` tells ARMED from ANNOUNCED; `window` is the ack window counter. -/
structure Pending where
  slot : SlotNo
  generation : Half
  backdrop : Colour
  regions : List Region
  epoch : Word
  cause : Cause
  requester : Option Link
  ackSet : LinkSet
  acked : LinkSet
  window : Nat
  armed : Bool
deriving DecidableEq, Repr

/-- The transition engine (section 3.1). Records of the active layout come first, in sorted-list order, then those of
the pending layout alone, in theirs. -/
structure Engine where
  active : ActiveLayout
  activeEpoch : Word
  epochCounter : Word
  pending : Option Pending
  records : List RuntimeRecord
  ackFrames : Nat
deriving DecidableEq, Repr

/-- The engine after a reset that leaves ACK_FRAMES at `n` (R77, R78). -/
def Engine.fresh (n : Nat) : Engine :=
  { active := ActiveLayout.empty, activeEpoch := 0, epochCounter := 0, pending := none, records := [], ackFrames := n }

/-- A pixel of the store at its address: first block x 4096 + row x width + column (R80, log 12). -/
abbrev PixelCell := Nat × Colour

/-! ## Scan engine (chapter 5) -/

/-- The scan engine. A row that is `none` is BLANKING. -/
structure Scan where
  frame : Word
  row : Option Nat
  rate : Rate
  nextRate : Rate
  latch : Latch
deriving DecidableEq, Repr

/-! ## Touch router (chapter 6) -/

/-- Touch calibration (R130). -/
structure Calibration where
  gx : Nat
  gy : Nat
  ox : Int
  oy : Int
deriving DecidableEq, Repr

/-- The calibration defaults (R130). -/
def Calibration.default : Calibration := { gx := 39689, gy := 35208, ox := 0, oy := 0 }

/-- A contact table entry (R133). -/
inductive Contact where
  | free
  | bound (tag : Nat) (owner : Link) (u v : Nat)
  | discard
deriving DecidableEq, Repr

/-- The touch router. -/
structure Touch where
  reading : Bool
  calibration : Calibration
  contacts : Vector Contact 10
  malformed : Half
deriving DecidableEq, Repr

/-! ## Notices (chapter 8) -/

/-- Fields of the CURRENT notice (R164). -/
structure CurrentInfo where
  activeSlot : Option SlotNo
  activeEpoch : Word
  transition : TransitionState
  pendingSlot : Option SlotNo
  pendingEpoch : Option Word
  ownedTags : List Nat
  frame : Word
  rate : Rate
  latch : Latch
  posture : Posture
  face : Face
  sensor : Sensor
  desired : Desired
  stalled : Bool
deriving DecidableEq, Repr

/-- Fields of the EPOCH ANNOUNCE notice (R55). -/
structure AnnounceInfo where
  epoch : Word
  slot : SlotNo
  generation : Half
  cause : Cause
  posture : Posture
  face : Face
  ownedTags : List Nat
  deadline : Word
  ackExpected : Bool
deriving DecidableEq, Repr

/-- Fields of the POSTURE notice (R44). -/
structure PostureInfo where
  reason : PostureReason
  posture : Posture
  face : Face
  filtered : Option Nat
  desired : Desired
  outcome : FollowOutcome
  stalled : Bool
deriving DecidableEq, Repr

/-- A notice (section 8.1). -/
inductive Notice where
  | current (info : CurrentInfo)
  | announce (info : AnnounceInfo)
  | active (epoch : Word) (slot : SlotNo) (generation : Half) (frame : Word) (late : LinkSet)
  | withdrawn (epoch : Word) (slot : SlotNo) (reason : WithdrawReason)
  | posture (info : PostureInfo)
  | sensor (restored : Bool) (posture : Posture)
  | cutoff (on : Bool) (frame : Word)
  | touch (kind : TouchKind) (id : TouchId) (tag u v : Nat) (epoch : Word)
  | cancel (id : TouchId) (tag u v : Nat) (epoch : Word) (reason : CancelReason)
deriving DecidableEq, Repr

/-! ## Link ports (chapter 7) -/

/-- The command that holds a command slot (R151), with its tag; a WAIT for FRAME holds its count (R153). -/
inductive Running where
  | switch (tag : Byte)
  | waitFrame (tag : Byte) (count : Nat)
  | waitPosture (tag : Byte)
  | waitEpoch (tag : Byte)
deriving DecidableEq, Repr

/-- An armed abort (R154). -/
structure ArmedAbort where
  condition : ArmCondition
  quiet : Bool
deriving DecidableEq, Repr

/-- The eight link counters (R165). -/
structure Counters where
  crcErrors : Half
  malformed : Half
  overrun : Half
  misdirected : Half
  stale : Half
  late : Half
  touchDropped : Half
  noticeLost : Half
deriving DecidableEq, Repr

/-- Every counter 0. -/
def Counters.zero : Counters := ⟨0, 0, 0, 0, 0, 0, 0, 0⟩

/-- Status codes (section 7.8). -/
inductive Status where
  | ok
  | busy
  | unknownCommand
  | badParam
  | locked
  | inUse
  | notOpen
  | listFull
  | overlap
  | dupTag
  | storeFull
  | transitionPending
  | badEpoch
  | notOwner
  | noRegion
  | superseded
  | aborted
  | cutoffActive
  | noSample
  | epochExhausted
  | done
  | armed
  | idle
deriving DecidableEq, Repr

/-- Results of SLOT-READ (R18). -/
structure SlotReadInfo where
  backdrop : Colour
  generation : Half
  regionCount : Nat
  record : Option Region
  use : SlotUse
  locked : Bool
  low : SlotNo
  high : SlotNo
  outside : Bool
  freeze : Bool
deriving DecidableEq, Repr

/-- Results of POSTURE-READ (R45). -/
structure PostureReadInfo where
  posture : Posture
  face : Face
  last : Option LastValues
  dwellCount : Nat
  counting : Option Posture
  sensor : Sensor
  desired : Desired
  stalled : Bool
  bindings : Bindings
  settings : HingeSettings
  rejects : Half
  touchMalformed : Half
deriving DecidableEq, Repr

/-- One record a REGION-CLEAR acted on (R98, R100): the front buffer with whether its clear is due, and the back. -/
structure ClearEntry where
  membership : Membership
  front : Option (Label × Bool)
  back : Option Label
deriving DecidableEq, Repr

/-- One entry of a REGION-STATUS response (R102): the record as it stands. -/
structure StatusEntry where
  membership : Membership
  content : Content
  owner : Option Link
  gate : Gate
  entryEpoch : Word
  buffers : Option Buffers
deriving DecidableEq, Repr

/-- The store summary of REGION-STATUS (R102). -/
structure StoreSummary where
  held : Nat
  free : Nat
  gaps : Nat
  longest : Option (Nat × Nat)
deriving DecidableEq, Repr

/-- The STATUS record (R166). -/
structure StatusInfo where
  state : PortState
  quiet : Nat
  quietFrames : Nat
  running : Option Running
  armed : Option ArmedAbort
  streamCount : Nat
  hold : Bool
  noticeCount : Nat
  moveCount : Nat
  frame : Word
  activeEpoch : Word
  pendingEpoch : Option Word
  latch : Latch
  counters : Counters
deriving DecidableEq, Repr

/-- The results of a response, in the order the owning rule lists them (R169). -/
inductive Results where
  | none
  | field (n : Nat)
  | running (r : Running)
  | count (n : Nat)
  | slotNumber (n : SlotNo)
  | slotUse (u : SlotUse)
  | indexPair (i j : Nat)
  | need (n : Nat)
  | committed (slot : SlotNo) (generation : Half) (regions : Nat)
  | slotRead (info : SlotReadInfo)
  | range (low high : SlotNo) (outside freeze : Bool)
  | hinge (settings : HingeSettings)
  | face (face : Face) (outcome : FollowOutcome)
  | binding (posture : Posture) (face : Face) (entry : Binding) (outcome : FollowOutcome)
  | postureRead (info : PostureReadInfo)
  | snapshot (record : Snapshot)
  | switched (epoch : Word) (slot : SlotNo) (frame : Word)
  | epoch (epoch : Word)
  | acked (epoch : Word) (state : TransitionState)
  | epochs (active : Word) (pending : Option Word)
  | ackWindow (now before : Nat)
  | cleared (entries : List ClearEntry)
  | regionStatus (entries : List StatusEntry) (summary : StoreSummary)
  | noRegion (summary : StoreSummary)
  | rates (now next : Rate)
  | frame (frame : Word)
  | calibration (now before : Calibration)
  | quietFrames (now before : Nat)
  | postureWaited (posture : Posture) (face : Face) (filtered : Option Nat)
  | status (info : StatusInfo)
  | notices (taken : List Notice) (left : Nat)
deriving DecidableEq, Repr

/-- A response produced and not yet sent (R152). -/
structure Response where
  tag : Byte
  code : Byte
  status : Status
  results : Results
deriving DecidableEq, Repr

/-- A link port (chapter 7) with its link's notice queue (chapter 8). -/
structure Port where
  state : PortState
  quiet : Nat
  quietFrames : Nat
  slot : Option Running
  armed : Option ArmedAbort
  stream : List Line
  hold : Bool
  responses : List Response
  counters : Counters
  notices : List Notice
deriving DecidableEq, Repr

/-- A port after a reset that leaves QUIET_FRAMES at `n` (R158, R167). -/
def Port.fresh (n : Nat) : Port :=
  { state := .offline, quiet := 0, quietFrames := n, slot := none, armed := none, stream := [], hold := false,
    responses := [], counters := Counters.zero, notices := [] }

/-! ## The whole part -/

/-- How far a reset has come (R105, R125): `powerOn` from a power-on reset to its end, `asserted` while the RESET input
is asserted. In both the part is held until RESET_END (log 5). -/
inductive ResetPhase where
  | running
  | powerOn
  | asserted
deriving DecidableEq, Repr

/-- What the part has driven on its outputs, the model's own record (log 18): SYNC pulses since power-on, the last row
sent to the panel and the last packet sent on each return link. -/
structure Outputs where
  syncPulses : Nat
  panelRow : Option (Nat × List Colour)
  sent : PerLink (List Byte)
deriving DecidableEq, Repr

/-- The state of the DX48. `cutoffInput` is the level of CUTOFF as last known (log 3); `pending` is the queue of waiting
commands, the model's own. -/
structure State where
  slots : SlotTable
  posture : PostureMonitor
  engine : Engine
  store : List PixelCell
  scan : Scan
  touch : Touch
  ports : PerLink Port
  cutoffInput : Bool
  phase : ResetPhase
  outputs : Outputs
  pending : List Instr
deriving DecidableEq, Repr

/-- Faults: none. Every event and command of the spec has an effect or an answer, so no step of the DX48 stops the
part; a bad packet is counted and a bad command answered. -/
inductive Fault
deriving DecidableEq, Repr

/-- Refusals. -/
inductive Refusal where
  /-- Raised by exec's arm of a command that has no meaning in this model, named by its mnemonic. Safe: the model stops
  where the part goes on. No arm raises it now. -/
  | notModelled (mnemonic : String)
deriving DecidableEq, Repr

/-- The slot table after a power-on reset (R24). -/
def SlotTable.powerOn : SlotTable :=
  { slots := Vector.replicate 8 Layout.blank, low := 0, high := 7, outside := false, freeze := false,
    staging := ⟨none, none⟩ }

/-- The posture monitor after a reset that leaves the bindings and settings given (R46). -/
def PostureMonitor.fresh (b : Bindings) (h : HingeSettings) : PostureMonitor :=
  { measurement := none, rejects := 0, window := none, last := none, posture := .unknown, dwellCount := 0,
    counting := none, face := .front, sensor := .none, running := none, snapshot := none, bindings := b,
    stalled := false, settings := h }

/-- The scan engine after a reset that leaves RATE at `r`, with the latch as given (R125). -/
def Scan.fresh (r : Rate) (latch : Latch) : Scan :=
  { frame := 0, row := some 0, rate := r, nextRate := r, latch := latch }

/-- The touch router after a reset that leaves the calibration given (R144). -/
def Touch.fresh (c : Calibration) : Touch :=
  { reading := false, calibration := c, contacts := Vector.replicate 10 .free, malformed := 0 }

/-- The part right after a power-on reset has ended, CUTOFF released and TOUCH_READY low (R24, R46, R78, R104, R125,
R144, R158, R167, section 10.1; log 3, log 5, log 12, log 18). -/
def State.reset : State :=
  { slots := SlotTable.powerOn
    posture := PostureMonitor.fresh Bindings.allHold HingeSettings.default
    engine := Engine.fresh 4
    store := []
    scan := Scan.fresh .hz60 .clear
    touch := Touch.fresh Calibration.default
    ports := ⟨Port.fresh 8, Port.fresh 8⟩
    cutoffInput := false
    phase := .running
    outputs := { syncPulses := 1, panelRow := none, sent := ⟨[], []⟩ }
    pending := [] }

end Sys2Proof.Machine
end

