-- ==== Sys2Proof/Machine/Flags.lean ====
section
/-! DEFINITION. The flags and views that other state determines (log 13): the use and lock of a slot, the transition
state, the desired slot and current target, ATTN, and the HOLD rule. -/

namespace Sys2Proof.Machine

/-! ## Transition engine -/

/-- STEADY, ANNOUNCED or ARMED (R47). -/
def transitionState (e : Engine) : TransitionState :=
  match e.pending with
  | none => .steady
  | some p => if p.armed then .armed else .announced

/-- The pending epoch, while there is one. -/
def pendingEpoch (e : Engine) : Option Word := e.pending.map (·.epoch)

/-- The pending slot, while there is one. -/
def pendingSlot (e : Engine) : Option SlotNo := e.pending.map (·.slot)

/-- The records of the active layout, in sorted-list order. -/
def activeRecords (e : Engine) : List RuntimeRecord := e.records.filter (fun r => r.membership ≠ .pending)

/-- The records of the pending layout. -/
def pendingRecords (e : Engine) : List RuntimeRecord := e.records.filter (fun r => r.membership ≠ .active)

/-- The current target (R41): the pending slot, else the active slot, else none. -/
def currentTarget (e : Engine) : Option SlotNo :=
  match e.pending with
  | some p => some p.slot
  | none => e.active.slot

/-- Use of a slot (R8). -/
def slotUse (e : Engine) (n : SlotNo) : SlotUse :=
  if e.active.slot = some n then .active else if pendingSlot e = some n then .pending else .none

/-- The tags of the regions a link owns, in the order given. -/
def ownedTags (l : Link) (regions : List Region) : List Nat :=
  (regions.filter (fun r => r.owner = some l)).map (·.tag)

/-! ## Slot table -/

/-- Whether a slot is locked (R19). -/
def slotLocked (t : SlotTable) (n : SlotNo) : Bool :=
  let inside := decide (t.low ≤ n) && decide (n ≤ t.high)
  if t.outside then inside else !inside

/-! ## Posture monitor -/

/-- The binding for a posture and face; UNKNOWN has none (R40). -/
def bindingFor (b : Bindings) : Posture → Face → Option Binding
  | .unknown, _ => none
  | .folded, .front => some b.foldedFront
  | .folded, .rear => some b.foldedRear
  | .part, .front => some b.partFront
  | .part, .rear => some b.partRear
  | .flat, .front => some b.flatFront
  | .flat, .rear => some b.flatRear

/-- The desired slot (R41). -/
def desiredSlot (m : PostureMonitor) : Desired :=
  match bindingFor m.bindings m.posture m.face with
  | none => .none
  | some .hold => .hold
  | some (.slot n) => .slot n

/-! ## Links -/

/-- HOLD after a change of stream depth (R150). -/
def holdAfter (depth : Nat) (hold : Bool) : Bool :=
  if Config.holdAssert ≤ depth then true else if depth ≤ Config.holdRelease then false else hold

/-- ATTN (R162): high while the link's notice queue holds a notice. -/
def attn (p : Port) : Bool := !p.notices.isEmpty

end Sys2Proof.Machine
end

