-- ==== Sys2Proof/Decode.lean ====
section
/-! DEFINITION. Packets as bytes (sections 9.1 to 9.4): the CRC, the checks of R145 on a forward packet, the command it
carries, and the forward packet of a command. `decodeTableWord` stands at the end: spec/opcode_table.json gives no row
any bits. -/

namespace Sys2Proof

/-! ## Fields of more than one byte, most significant byte first (chapter 9) -/

/-- A two-byte field from its bytes. -/
def halfOf (hi lo : Byte) : Half := hi ++ lo

/-- A four-byte field from its bytes. -/
def wordOf (b3 b2 b1 b0 : Byte) : Word := (b3 ++ b2) ++ (b1 ++ b0)

/-- The bytes of a two-byte field. -/
def halfBytes (h : Half) : List Byte := [h.extractLsb' 8 8, h.extractLsb' 0 8]

/-- The bytes of a four-byte field. -/
def wordBytes (w : Word) : List Byte :=
  [w.extractLsb' 24 8, w.extractLsb' 16 8, w.extractLsb' 8 8, w.extractLsb' 0 8]

/-- The bytes of a colour: red, green, blue (section 9.2). -/
def Colour.bytes (c : Colour) : List Byte := [c.red, c.green, c.blue]

/-- The pixels of a LINE payload from offset 12 on; bytes that do not make a whole pixel give none. -/
def pixelsOf : List Byte → List Colour
  | r :: g :: b :: rest => ⟨r, g, b⟩ :: pixelsOf rest
  | _ => []

/-! ## The CRC (R146) -/

/-- One bit into the CRC register: the top bit is exclusive-ored with the input bit, the register shifted left, and
exclusive-ored with 0x1021 when that gave 1. -/
def crcBit (register : Half) (bit : Bool) : Half :=
  if register.msb ^^ bit then (register <<< 1) ^^^ 0x1021 else register <<< 1

/-- One byte into the register, most significant bit first. -/
def crcByte (register : Half) (byte : Byte) : Half :=
  [7, 6, 5, 4, 3, 2, 1, 0].foldl (fun r i => crcBit r (byte.getLsbD i)) register

/-- The CRC over a header and payload: the register starts at 0xFFFF, with no final inversion. -/
def crc (bytes : List Byte) : Half := bytes.foldl crcByte 0xFFFF

/-- A packet: kind, flags, payload length, payload, CRC (section 9.1). -/
def framePacket (kind flags : Byte) (payload : List Byte) : List Byte :=
  let body := kind :: flags :: (halfBytes (BitVec.ofNat 16 payload.length) ++ payload)
  body ++ halfBytes (crc body)

/-! ## Command codes (section 9.3) -/

/-- The commands a COMMAND packet can name. -/
inductive Command where
  | stageOpen | stageRegion | stageCommit | stageDrop | slotRead | slotsOpen | slotsClose | slotsFreeze
  | setHinge | setFace | bind | postureRead | hingeSnapshot
  | switch | setAckWindow | ackEpoch
  | regionClear | regionStatus
  | setRate | resume
  | setTouchCal
  | setQuiet | wait | abort | portReset | status | fetch
deriving DecidableEq, Repr

/-- The command code (section 9.3). -/
def commandCode : Command → Byte
  | .stageOpen => 0x01 | .stageRegion => 0x02 | .stageCommit => 0x03 | .stageDrop => 0x04
  | .slotRead => 0x05 | .slotsOpen => 0x06 | .slotsClose => 0x07 | .slotsFreeze => 0x08
  | .setHinge => 0x10 | .setFace => 0x11 | .bind => 0x12 | .postureRead => 0x13 | .hingeSnapshot => 0x14
  | .switch => 0x20 | .setAckWindow => 0x21 | .ackEpoch => 0x22
  | .regionClear => 0x30 | .regionStatus => 0x31
  | .setRate => 0x40 | .resume => 0x41
  | .setTouchCal => 0x50
  | .setQuiet => 0x60 | .wait => 0x61 | .abort => 0x62 | .portReset => 0x63 | .status => 0x64 | .fetch => 0x65

/-- Every command, in the order of section 9.3. -/
def allCommands : List Command :=
  [.stageOpen, .stageRegion, .stageCommit, .stageDrop, .slotRead, .slotsOpen, .slotsClose, .slotsFreeze,
    .setHinge, .setFace, .bind, .postureRead, .hingeSnapshot, .switch, .setAckWindow, .ackEpoch,
    .regionClear, .regionStatus, .setRate, .resume, .setTouchCal, .setQuiet, .wait, .abort, .portReset, .status,
    .fetch]

/-- The command a code byte names, if any (R169). -/
def commandOfCode (code : Byte) : Option Command := allCommands.find? (fun c => commandCode c == code)

/-- The command a known code and its parameter bytes spell; none when the length is not the one section 9.3 gives. The
level of CUTOFF goes with RESUME (log 3). -/
def decodeParams (cutoff : Bool) (l : Link) (tag : Byte) (c : Command) (params : List Byte) : Option Instr :=
  match c with
  | .stageOpen => match params with
    | [slot, r, g, b] => some (.stageOpen l tag slot ⟨r, g, b⟩)
    | _ => none
  | .stageRegion => match params with
    | [t, o, k, bu, c1, c0, w1, w0, r1, r0, h1, h0, orient, fr, fg, fb, touch] =>
      some (.stageRegion l tag
        { tag := t, owner := o, kind := k, buffering := bu, col0 := halfOf c1 c0, width := halfOf w1 w0,
          row0 := halfOf r1 r0, height := halfOf h1 h0, orientation := orient, fill := ⟨fr, fg, fb⟩, touch := touch })
    | _ => none
  | .stageCommit => match params with
    | [] => some (.stageCommit l tag)
    | _ => none
  | .stageDrop => match params with
    | [] => some (.stageDrop l tag)
    | _ => none
  | .slotRead => match params with
    | [slot, index] => some (.slotRead l tag slot index)
    | _ => none
  | .slotsOpen => match params with
    | [low, high, outside] => some (.slotsOpen l tag low high outside)
    | _ => none
  | .slotsClose => match params with
    | [] => some (.slotsClose l tag)
    | _ => none
  | .slotsFreeze => match params with
    | [] => some (.slotsFreeze l tag)
    | _ => none
  | .setHinge => match params with
    | [a1, a0, b1, b0, c1, c0, d1, d0, dwell, z1, z0, timeout] =>
      some (.setHinge l tag
        { foldEnter := halfOf a1 a0, foldExit := halfOf b1 b0, flatExit := halfOf c1 c0, flatEnter := halfOf d1 d0,
          dwell := dwell, zero := halfOf z1 z0, timeout := timeout })
    | _ => none
  | .setFace => match params with
    | [face] => some (.setFace l tag face)
    | _ => none
  | .bind => match params with
    | [posture, face, slot] => some (.bind l tag posture face slot)
    | _ => none
  | .postureRead => match params with
    | [] => some (.postureRead l tag)
    | _ => none
  | .hingeSnapshot => match params with
    | [] => some (.hingeSnapshot l tag)
    | _ => none
  | .switch => match params with
    | [slot] => some (.switch l tag slot)
    | _ => none
  | .setAckWindow => match params with
    | [n] => some (.setAckWindow l tag n)
    | _ => none
  | .ackEpoch => match params with
    | [e3, e2, e1, e0] => some (.ackEpoch l tag (wordOf e3 e2 e1 e0))
    | _ => none
  | .regionClear => match params with
    | [region, which] => some (.regionClear l tag region which)
    | _ => none
  | .regionStatus => match params with
    | [region] => some (.regionStatus l tag region)
    | _ => none
  | .setRate => match params with
    | [rate] => some (.setRate l tag rate)
    | _ => none
  | .resume => match params with
    | [] => some (.resume l tag cutoff)
    | _ => none
  | .setTouchCal => match params with
    | [gx1, gx0, gy1, gy0, ox1, ox0, oy1, oy0] =>
      some (.setTouchCal l tag (halfOf gx1 gx0) (halfOf gy1 gy0) (halfOf ox1 ox0) (halfOf oy1 oy0))
    | _ => none
  | .setQuiet => match params with
    | [n] => some (.setQuiet l tag n)
    | _ => none
  | .wait => match params with
    | [event, n] => some (.wait l tag event n)
    | _ => none
  | .abort => match params with
    | [condition, quiet] => some (.abort l tag condition quiet)
    | _ => none
  | .portReset => match params with
    | [] => some (.portReset l tag)
    | _ => none
  | .status => match params with
    | [] => some (.status l tag)
    | _ => none
  | .fetch => match params with
    | [] => some (.fetch l tag)
    | _ => none

/-! ## The checks of R145 -/

/-- What the checks of R145, and step 2 of R151, make of the bytes at the head of a link's forward direction. -/
inductive Verdict where
  /-- Fewer bytes than the packet needs: its reception is incomplete. -/
  | incomplete
  /-- Check 1: the header's length field exceeds the largest forward payload. -/
  | longHeader
  /-- Check 2: the CRC does not match. -/
  | badCrc
  /-- Check 3 or 4: the kind, the flags or the payload length. -/
  | malformed
  /-- A valid COMMAND packet of a known code whose length does not fit the code (step 2 of R151). -/
  | wrongLength
  /-- A valid packet, as the command it is. -/
  | valid (i : Instr)
deriving DecidableEq, Repr

/-- Kind, flags and length checks 3 and 4 of R145 on a packet whose CRC matches, and what it carries (R168, R169). -/
def classify (cutoff : Bool) (l : Link) (kind flags : Byte) (payload : List Byte) : Verdict :=
  if kind = 0x01 ∧ flags = 0x00 then
    match payload with
    | tag :: code :: params =>
      match commandOfCode code with
      | none => .valid (.unknownCommand l tag code)
      | some c => match decodeParams cutoff l tag c params with
        | some i => .valid i
        | none => .wrongLength
    | _ => .malformed
  else if kind = 0x02 ∧ flags = 0x00 then
    match payload with
    | tag :: ft :: e3 :: e2 :: e1 :: e0 :: r1 :: r0 :: o1 :: o0 :: c1 :: c0 :: px =>
      if px.length = 3 * (halfOf c1 c0).toNat then
        .valid (.line l { tag := tag, frameTag := ft, epoch := wordOf e3 e2 e1 e0, row := halfOf r1 r0,
                          offset := halfOf o1 o0, pixels := pixelsOf px })
      else .malformed
    | _ => .malformed
  else if kind = 0x03 ∧ (flags = 0x00 ∨ flags = 0x01) then
    match payload with
    | [tag, e3, e2, e1, e0] =>
      if flags = 0x00 then .valid (.beginMark l tag (wordOf e3 e2 e1 e0))
      else .valid (.endMark l tag (wordOf e3 e2 e1 e0))
    | _ => .malformed
  else .malformed

/-- The first packet of the bytes, put through R145 (R168). -/
def verdict (cutoff : Bool) (l : Link) (bytes : List Byte) : Verdict :=
  match bytes with
  | kind :: flags :: n1 :: n0 :: rest =>
    let n := (halfOf n1 n0).toNat
    if Config.maxPayload < n then .longHeader
    else if rest.length < n + 2 then .incomplete
    else if (rest.drop n).take 2 ≠ halfBytes (crc (kind :: flags :: n1 :: n0 :: rest.take n)) then .badCrc
    else classify cutoff l kind flags (rest.take n)
  | _ => .incomplete

/-- The bytes after the first packet. After a header that fails check 1 the next packet begins right behind the header
(R145). -/
def afterPacket (bytes : List Byte) : List Byte :=
  match bytes with
  | _ :: _ :: n1 :: n0 :: rest =>
    let n := (halfOf n1 n0).toNat
    if Config.maxPayload < n then rest else rest.drop (n + 2)
  | _ => []

/-! ## The forward packet of a command -/

/-- A COMMAND packet. -/
def commandPacket (c : Command) (tag : Byte) (params : List Byte) : List Byte :=
  framePacket 0x01 0x00 (tag :: commandCode c :: params)

/-- The region record of a STAGE-REGION parameter (section 9.4). -/
def RegionRecord.bytes (r : RegionRecord) : List Byte :=
  [r.tag, r.owner, r.kind, r.buffering] ++ halfBytes r.col0 ++ halfBytes r.width ++ halfBytes r.row0
    ++ halfBytes r.height ++ [r.orientation] ++ r.fill.bytes ++ [r.touch]

/-- The parameters of SET-HINGE (section 9.3). -/
def HingeFields.bytes (h : HingeFields) : List Byte :=
  halfBytes h.foldEnter ++ halfBytes h.foldExit ++ halfBytes h.flatExit ++ halfBytes h.flatEnter ++ [h.dwell]
    ++ halfBytes h.zero ++ [h.timeout]

/-- The payload of a LINE packet (section 9.2). -/
def Line.bytes (p : Line) : List Byte :=
  [p.tag, p.frameTag] ++ wordBytes p.epoch ++ halfBytes p.row ++ halfBytes p.offset
    ++ halfBytes (BitVec.ofNat 16 p.pixels.length) ++ p.pixels.flatMap Colour.bytes

/-- The forward packet that brings a command; none for a command that is no packet. -/
def encodePacket : Instr → Option (List Byte)
  | .line _ p => some (framePacket 0x02 0x00 p.bytes)
  | .beginMark _ t e => some (framePacket 0x03 0x00 (t :: wordBytes e))
  | .endMark _ t e => some (framePacket 0x03 0x01 (t :: wordBytes e))
  | .unknownCommand _ tag code => some (framePacket 0x01 0x00 [tag, code])
  | .stageOpen _ tag slot backdrop => some (commandPacket .stageOpen tag (slot :: backdrop.bytes))
  | .stageRegion _ tag r => some (commandPacket .stageRegion tag r.bytes)
  | .stageCommit _ tag => some (commandPacket .stageCommit tag [])
  | .stageDrop _ tag => some (commandPacket .stageDrop tag [])
  | .slotRead _ tag slot index => some (commandPacket .slotRead tag [slot, index])
  | .slotsOpen _ tag low high outside => some (commandPacket .slotsOpen tag [low, high, outside])
  | .slotsClose _ tag => some (commandPacket .slotsClose tag [])
  | .slotsFreeze _ tag => some (commandPacket .slotsFreeze tag [])
  | .setHinge _ tag h => some (commandPacket .setHinge tag h.bytes)
  | .setFace _ tag face => some (commandPacket .setFace tag [face])
  | .bind _ tag posture face slot => some (commandPacket .bind tag [posture, face, slot])
  | .postureRead _ tag => some (commandPacket .postureRead tag [])
  | .hingeSnapshot _ tag => some (commandPacket .hingeSnapshot tag [])
  | .switch _ tag slot => some (commandPacket .switch tag [slot])
  | .setAckWindow _ tag n => some (commandPacket .setAckWindow tag [n])
  | .ackEpoch _ tag e => some (commandPacket .ackEpoch tag (wordBytes e))
  | .regionClear _ tag region which => some (commandPacket .regionClear tag [region, which])
  | .regionStatus _ tag region => some (commandPacket .regionStatus tag [region])
  | .setRate _ tag rate => some (commandPacket .setRate tag [rate])
  | .resume _ tag _ => some (commandPacket .resume tag [])
  | .setTouchCal _ tag gx gy ox oy =>
    some (commandPacket .setTouchCal tag (halfBytes gx ++ halfBytes gy ++ halfBytes ox ++ halfBytes oy))
  | .setQuiet _ tag n => some (commandPacket .setQuiet tag [n])
  | .wait _ tag event n => some (commandPacket .wait tag [event, n])
  | .abort _ tag condition quiet => some (commandPacket .abort tag [condition, quiet])
  | .portReset _ tag => some (commandPacket .portReset tag [])
  | .status _ tag => some (commandPacket .status tag [])
  | .fetch _ tag => some (commandPacket .fetch tag [])
  | .powerOnReset => none
  | .resetInput => none
  | .resetEnd _ _ => none
  | .protectPulse => none
  | .cutoffAssert => none
  | .hingeFall _ => none
  | .hingeRise _ _ => none
  | .sensorTimeout => none
  | .frameStart _ => none
  | .ackWindowExpiry => none
  | .quietDetect _ => none
  | .waitFrameDone _ => none
  | .rowScan => none
  | .badPacket _ _ => none
  | .touchReadStart => none
  | .touchReadTimeout _ => none
  | .touchReport _ _ _ => none
  | .responseSent _ => none

/-- The command that a word spells by the bits of spec/opcode_table.json. The table gives no row any bits, so no word
spells one (log 23). -/
def decodeTableWord (_nbits _w : Nat) : Option Instr := none

end Sys2Proof
end

