-- ==== Sys2Proof/Machine/Operands.lean ====
section
/-! DEFINITION. The operand forms: the encodings of section 9.5 read from a byte, and the field-by-field checks that
turn parameters at their encoded width into checked values (R2, R3, R37, R130). -/

namespace Sys2Proof.Machine

/-! ## Encodings of section 9.5, read -/

/-- A slot number, 0 to 7. -/
def slotOfByte (b : Byte) : Option SlotNo := if h : b.toNat < 8 then some ⟨b.toNat, h⟩ else none

/-- Owner: 0 NONE, 1 LINK_A, 2 LINK_B. -/
def ownerOfByte (b : Byte) : Option (Option Link) :=
  if b = 0 then some none else if b = 1 then some (some .a) else if b = 2 then some (some .b) else none

/-- Orientation: 0 UPRIGHT, 1 TURNED. -/
def orientationOfByte (b : Byte) : Option Orientation :=
  if b = 0 then some .upright else if b = 1 then some .turned else none

/-- Touch: 0 IGNORE, 1 ROUTE. -/
def touchOfByte (b : Byte) : Option TouchSetting :=
  if b = 0 then some .ignore else if b = 1 then some .route else none

/-- A posture that can be bound: 1 FOLDED, 2 PARTIAL, 3 FLAT; 0 UNKNOWN cannot (R40). -/
def boundPostureOfByte (b : Byte) : Option Posture :=
  if b = 1 then some .folded else if b = 2 then some .part else if b = 3 then some .flat else none

/-- Face: 0 FRONT, 1 REAR. -/
def faceOfByte (b : Byte) : Option Face := if b = 0 then some .front else if b = 1 then some .rear else none

/-- A binding: a slot 0 to 7, or 0xFF HOLD. -/
def bindingOfByte (b : Byte) : Option Binding := if b = 0xFF then some .hold else (slotOfByte b).map .slot

/-- A flag: 0 clear, 1 set. -/
def flagOfByte (b : Byte) : Option Bool := if b = 0 then some false else if b = 1 then some true else none

/-- A region tag that a command can name, 1 to 15. -/
def tagOfByte (b : Byte) : Option Nat := if 1 ≤ b.toNat ∧ b.toNat ≤ 15 then some b.toNat else none

/-- Which buffers: 1 FRONT, 2 BACK, 3 BOTH. -/
def whichOfByte (b : Byte) : Option Which :=
  if b = 1 then some .front else if b = 2 then some .back else if b = 3 then some .both else none

/-- A rate: 60, 90 or 120. -/
def rateOfByte (b : Byte) : Option Rate :=
  if b = 60 then some .hz60 else if b = 90 then some .hz90 else if b = 120 then some .hz120 else none

/-- What an ABORT's first parameter says. -/
inductive AbortWhen where
  | now
  | armed (c : ArmCondition)
deriving DecidableEq, Repr

/-- When: 0 NOW, 1 AT_FRAME, 2 AT_POSTURE. -/
def abortWhenOfByte (b : Byte) : Option AbortWhen :=
  if b = 0 then some .now else if b = 1 then some (.armed .atFrame) else if b = 2 then some (.armed .atPosture) else none

/-- The event of a touch report entry: 0 DOWN, 1 MOVE, 2 UP (section 9.7). -/
def touchKindOfByte (b : Byte) : Option TouchKind :=
  if b = 0 then some .down else if b = 1 then some .move else if b = 2 then some .up else none

/-- A touch id, 0 to 9. -/
def touchIdOfByte (b : Byte) : Option TouchId := if h : b.toNat < 10 then some ⟨b.toNat, h⟩ else none

/-! ## Checked parameters -/

/-- Field 4 and, for it, field 3: the content that kind and buffering bytes name for an owner, or the number of the
failing field (R3). -/
def contentOf (owner : Option Link) (kind buffering : Byte) : Except Nat Content :=
  if kind = 0 then (if buffering = 0 then .ok .streamed else .error 4)
  else if kind = 1 then
    if owner = none then .error 3
    else if buffering = 1 then .ok .single
    else if buffering = 2 then .ok .double
    else .error 4
  else .error 3

/-- The region record checks of R2 and R3, in the order of the field numbers: the checked record, or the number of the
first field that fails. -/
def checkRegion (r : RegionRecord) : Except Nat Region :=
  match tagOfByte r.tag with
  | none => .error 1
  | some tag =>
  match ownerOfByte r.owner with
  | none => .error 2
  | some owner =>
  match contentOf owner r.kind r.buffering with
  | .error n => .error n
  | .ok content =>
  if ¬ (r.col0.toNat ≤ 2472 ∧ r.col0.toNat % 8 = 0) then .error 5
  else if ¬ (8 ≤ r.width.toNat ∧ r.width.toNat ≤ Config.panelColumns ∧ r.width.toNat % 8 = 0
      ∧ r.col0.toNat + r.width.toNat ≤ Config.panelColumns) then .error 6
  else if ¬ r.row0.toNat < Config.panelRows then .error 7
  else if ¬ (1 ≤ r.height.toNat ∧ r.height.toNat ≤ Config.panelRows
      ∧ r.row0.toNat + r.height.toNat ≤ Config.panelRows) then .error 8
  else
  match orientationOfByte r.orientation with
  | none => .error 9
  | some orientation =>
  if content = .streamed ∧ orientation = .turned then .error 9
  else
  match touchOfByte r.touch with
  | none => .error 11
  | some touch =>
    .ok { tag := tag, owner := owner, content := content, col0 := r.col0.toNat, width := r.width.toNat,
          row0 := r.row0.toNat, height := r.height.toNat, orientation := orientation, fill := r.fill, touch := touch }

/-- The settings that SET-HINGE's parameters spell, unchecked. -/
def hingeOf (f : HingeFields) : HingeSettings :=
  { foldEnter := f.foldEnter.toNat, foldExit := f.foldExit.toNat, flatExit := f.flatExit.toNat,
    flatEnter := f.flatEnter.toNat, dwell := f.dwell.toNat, zero := f.zero.toNat, timeout := f.timeout.toNat }

/-- The number of the first setting that fails R37's checks, if any. -/
def hingeFault (h : HingeSettings) : Option Nat :=
  if ¬ h.foldEnter ≤ 1800 then some 1
  else if ¬ (h.foldExit ≤ 1800 ∧ h.foldEnter < h.foldExit) then some 2
  else if ¬ (h.flatExit ≤ 1800 ∧ h.foldExit < h.flatExit) then some 3
  else if ¬ (h.flatEnter ≤ 1800 ∧ h.flatExit < h.flatEnter) then some 4
  else if ¬ (1 ≤ h.dwell ∧ h.dwell ≤ 32) then some 5
  else if ¬ h.zero ≤ 3599 then some 6
  else if ¬ (5 ≤ h.timeout ∧ h.timeout ≤ 255) then some 7
  else none

/-- The calibration that SET-TOUCH-CAL's parameters spell, unchecked; OX and OY are signed (section 9.3). -/
def calibrationOf (gx gy ox oy : Half) : Calibration :=
  { gx := gx.toNat, gy := gy.toNat, ox := ox.toInt, oy := oy.toInt }

/-- The number of the first calibration field that fails R130's checks, if any. -/
def calibrationFault (c : Calibration) : Option Nat :=
  if ¬ (1 ≤ c.gx ∧ c.gx ≤ 65535) then some 1
  else if ¬ (1 ≤ c.gy ∧ c.gy ≤ 65535) then some 2
  else if ¬ (-4096 ≤ c.ox ∧ c.ox ≤ 4095) then some 3
  else if ¬ (-4096 ≤ c.oy ∧ c.oy ≤ 4095) then some 4
  else none

end Sys2Proof.Machine
end

