-- ==== Sys2Proof/Machine/Ops.lean ====
section
/-! DEFINITION. The shared operations: the ports, the counters, the notice queues (R159 to R162), responses (R152), the
arrival of a packet (R147), the order in which a COMMAND is handled (R151), and the pixel memory of the store (R80). -/

namespace Sys2Proof.Machine

/-- What a meaning answers. -/
abbrev Answer := Host.Outcome State Fault Refusal

/-- Whether a reset has not ended: every block then holds its reset state. The rules say so for the RESET input (R46,
R125, R126, R158); that a power-on reset holds the part as well is DEDUCED from what R46, R105 and R147 count from its
end (log 5). -/
def held (s : State) : Bool := s.phase ≠ .running

/-- An event that a part in reset does not take. -/
def unlessHeld (effect : State → State) (s : State) : State := if held s then s else effect s

/-! ## Ports and counters -/

/-- The port of a link. -/
def State.port (s : State) (l : Link) : Port := s.ports.get l

/-- Change the port of a link. -/
def State.modPort (s : State) (l : Link) (f : Port → Port) : State := { s with ports := s.ports.set l (f (s.port l)) }

/-- The eight link counters by name (R165). -/
inductive CounterName where
  | crcErrors
  | malformed
  | overrun
  | misdirected
  | stale
  | late
  | touchDropped
  | noticeLost
deriving DecidableEq, Repr

/-- A 16-bit count raised by `n` that stays at 65535 (R165). -/
def saturate (c : Half) (n : Nat) : Half := BitVec.ofNat 16 (min (c.toNat + n) 65535)

/-- Raise one counter by `n`. -/
def raise (k : CounterName) (n : Nat) (c : Counters) : Counters :=
  match k with
  | .crcErrors => { c with crcErrors := saturate c.crcErrors n }
  | .malformed => { c with malformed := saturate c.malformed n }
  | .overrun => { c with overrun := saturate c.overrun n }
  | .misdirected => { c with misdirected := saturate c.misdirected n }
  | .stale => { c with stale := saturate c.stale n }
  | .late => { c with late := saturate c.late n }
  | .touchDropped => { c with touchDropped := saturate c.touchDropped n }
  | .noticeLost => { c with noticeLost := saturate c.noticeLost n }

/-- Raise a counter of a port by `n`. -/
def Port.count (k : CounterName) (n : Nat) (p : Port) : Port := { p with counters := raise k n p.counters }

/-- Raise a counter of a link by `n`. -/
def countOn (l : Link) (k : CounterName) (n : Nat) (s : State) : State := s.modPort l (Port.count k n)

/-! ## Notices -/

/-- A MOVE notice, the one kind that is not must-keep (section 8.1). -/
def Notice.isMove : Notice → Bool
  | .touch .move _ _ _ _ _ => true
  | _ => false

/-- Whether a notice concerns a touch id (section 8.1). -/
def Notice.concerns (c : TouchId) : Notice → Bool
  | .touch _ id _ _ _ _ => id == c
  | .cancel id _ _ _ _ _ => id == c
  | _ => false

/-- How many MOVE notices a queue holds. -/
def moveCount (q : List Notice) : Nat := q.countP Notice.isMove

/-- The queue without its oldest MOVE; none when it holds no MOVE (R160). -/
def dropOldestMove : List Notice → Option (List Notice)
  | [] => none
  | n :: q => if n.isMove then some q else (dropOldestMove q).map (n :: ·)

/-- Place a must-keep notice (R160). -/
def placeKeep (n : Notice) (p : Port) : Port :=
  if p.notices.length < Config.noticeDepth then { p with notices := p.notices ++ [n] }
  else match dropOldestMove p.notices with
    | some q => Port.count .touchDropped 1 { p with notices := q ++ [n] }
    | none => Port.count .noticeLost 1 p

/-- The queue with the MOVE that is the most recent notice concerning `c` replaced by `new`; none when the most recent
one is no MOVE or there is none (R161, step 1). -/
def coalesce (c : TouchId) (new : Notice) : List Notice → Option (List Notice)
  | [] => none
  | n :: q =>
    if q.any (Notice.concerns c) then (coalesce c new q).map (n :: ·)
    else if n.isMove && n.concerns c then some (new :: q)
    else none

/-- Place a MOVE notice for touch id `c` (R161). -/
def placeMove (c : TouchId) (n : Notice) (p : Port) : Port :=
  match coalesce c n p.notices with
  | some q => { p with notices := q }
  | none =>
    if Config.moveDepth ≤ moveCount p.notices ∨ Config.noticeDepth ≤ p.notices.length then Port.count .touchDropped 1 p
    else { p with notices := p.notices ++ [n] }

/-- Place a notice in a queue by its kind (R159). -/
def placeNotice (n : Notice) (p : Port) : Port :=
  match n with
  | .touch .move c _ _ _ _ => placeMove c n p
  | _ => placeKeep n p

/-- Hand a notice for a link to the notice unit: discarded when the link is OFFLINE, placed otherwise (R159). -/
def notify (l : Link) (n : Notice) (s : State) : State :=
  s.modPort l (fun p => if p.state = .offline then p else placeNotice n p)

/-- Hand a notice for both links. -/
def notifyBoth (n : Notice) (s : State) : State := notify .b n (notify .a n s)

/-! ## Responses and the command slot -/

/-- The code of the command that holds a slot. -/
def Running.code : Running → Byte
  | .switch _ => commandCode .switch
  | .waitFrame _ _ => commandCode .wait
  | .waitPosture _ => commandCode .wait
  | .waitEpoch _ => commandCode .wait

/-- The tag of the command that holds a slot. -/
def Running.tag : Running → Byte
  | .switch t => t
  | .waitFrame t _ => t
  | .waitPosture t => t
  | .waitEpoch t => t

/-- Produce a response on a link (R152). -/
def respond (l : Link) (tag code : Byte) (status : Status) (results : Results) (s : State) : State :=
  s.modPort l (fun p =>
    { p with responses := p.responses ++ [{ tag := tag, code := code, status := status, results := results }] })

/-- Answer a command that completes at once. -/
def answer (l : Link) (tag : Byte) (c : Command) (status : Status) (results : Results) (s : State) : State :=
  respond l tag (commandCode c) status results s

/-- The running command's slot becomes empty and an armed abort is disarmed (R155). -/
def emptySlot (l : Link) (s : State) : State := s.modPort l (fun p => { p with slot := none, armed := none })

/-- End the running command of a link with a response; nothing when the slot is empty. -/
def finish (l : Link) (status : Status) (results : Results) (s : State) : State :=
  match (s.port l).slot with
  | none => s
  | some r => emptySlot l (respond l r.tag r.code status results s)

/-! ## Arrival of a packet and of a command -/

/-- The CURRENT notice for a link (R164). -/
def currentNotice (l : Link) (s : State) : Notice :=
  .current
    { activeSlot := s.engine.active.slot, activeEpoch := s.engine.activeEpoch,
      transition := transitionState s.engine, pendingSlot := pendingSlot s.engine,
      pendingEpoch := pendingEpoch s.engine,
      ownedTags := ownedTags l ((activeRecords s.engine).map (·.region)),
      frame := s.scan.frame, rate := s.scan.rate, latch := s.scan.latch,
      posture := s.posture.posture, face := s.posture.face, sensor := s.posture.sensor,
      desired := desiredSlot s.posture, stalled := s.posture.stalled }

/-- A valid packet makes its port ONLINE with quiet counter 0 (R147). -/
def comeOnline (l : Link) (s : State) : State := s.modPort l (fun p => { p with state := .online, quiet := 0 })

/-- The arrival of a valid packet (R147): the port becomes ONLINE, and one that was OFFLINE is given its CURRENT
notice. -/
def arrive (l : Link) (s : State) : State :=
  if (s.port l).state = .offline then
    let s1 := comeOnline l s
    notify l (currentNotice l s1) s1
  else comeOnline l s

/-- A valid LINE or MARK packet: not taken in reset, else the arrival and then its effect (R145, R158). -/
def takePacket (l : Link) (effect : State → State) : State → State := unlessHeld (fun s => effect (arrive l s))

/-- Whether the port holds too many unsent responses to take a command (R151, log 10). -/
def noRoom (l : Link) (s : State) : Bool := Config.responseRoom ≤ (s.port l).responses.length

/-- A valid COMMAND packet: discarded and counted OVERRUN when 8 responses are held, else handed on (R151). -/
def takeCommand (l : Link) (effect : State → State) : State → State :=
  takePacket l (fun s => if noRoom l s then countOn l .overrun 1 s else effect s)

/-- A command that uses the command slot: BUSY while a SWITCH or WAIT holds it (R151, step 4). -/
def slotCommand (l : Link) (tag : Byte) (c : Command) (effect : State → State) : State → State :=
  takeCommand l (fun s =>
    match (s.port l).slot with
    | some r => answer l tag c .busy (.running r) s
    | none => effect s)

/-! ## The stream queue -/

/-- A link's stream queue after a change of depth, with the HOLD that R150 gives. -/
def Port.setStream (q : List Line) (p : Port) : Port := { p with stream := q, hold := holdAfter q.length p.hold }

/-! ## The pixel memory (R80) -/

/-- The colour at a pixel address. -/
def pixelAt (m : List PixelCell) (a : Nat) : Colour :=
  match m.find? (fun c => c.1 == a) with
  | some c => c.2
  | none => Config.unwrittenPixel

/-- The cells that hold these pixels from an address on, less those equal to what an unlisted address reads as. -/
def cellsFrom (a : Nat) : List Colour → List PixelCell
  | [] => []
  | c :: cs => if c = Config.unwrittenPixel then cellsFrom (a + 1) cs else (a, c) :: cellsFrom (a + 1) cs

/-- Write consecutive pixels from an address on. -/
def writePixels (m : List PixelCell) (a : Nat) (px : List Colour) : List PixelCell :=
  m.filter (fun c => c.1 < a) ++ cellsFrom a px ++ m.filter (fun c => a + px.length ≤ c.1)

/-- Read `n` consecutive pixels from an address on. -/
def readPixels (m : List PixelCell) (a n : Nat) : List Colour := (List.range n).map (fun i => pixelAt m (a + i))

/-- The canonical form of the memory: addresses strictly rising, and no entry equal to what an unlisted address reads
as. -/
def Memory.wf : List PixelCell → Bool
  | [] => true
  | c :: m => decide (c.2 ≠ Config.unwrittenPixel) && m.all (fun d => c.1 < d.1) && Memory.wf m

end Sys2Proof.Machine
end

