-- ==== Sys2Proof/Machine/Store.lean ====
section
/-! DEFINITION. The region store (chapter 4): block needs, the store map, first-fit placement, stored lines, flips,
frame marks and clears. -/

namespace Sys2Proof.Machine

/-! ## Needs (R4) -/

/-- blocks(width, height) = ceil(width x height / 4096). -/
def blocks (width height : Nat) : Nat := (width * height + (Config.blockPixels - 1)) / Config.blockPixels

/-- A region's block need. -/
def blockNeed (r : Region) : Nat :=
  match r.content with
  | .streamed => 0
  | .single => blocks r.width r.height
  | .double => 2 * blocks r.width r.height

/-- A layout's block need. -/
def layoutNeed (rs : List Region) : Nat := (rs.map blockNeed).sum

/-! ## The store map (R81, log 11) -/

/-- A run of the store map. -/
structure Run where
  first : Nat
  count : Nat
  tag : Nat
  role : Membership
  label : Label
deriving DecidableEq, Repr

/-- The buffers a record holds, buffer A and B as they lie: front, then back. -/
def bufferList (b : Buffers) : List Buffer := b.front :: b.back.toList

/-- The run that a buffer of a record holds. -/
def runOf (r : RuntimeRecord) (b : Buffer) : Run :=
  { first := b.first, count := b.count, tag := r.region.tag, role := r.membership, label := b.label }

/-- The runs of a record. -/
def recordRuns (r : RuntimeRecord) : List Run :=
  match r.buffers with
  | none => []
  | some b => (bufferList b).map (runOf r)

/-- Put a run into a map kept in ascending order of first block. -/
def insertRun (x : Run) : List Run → List Run
  | [] => [x]
  | y :: ys => if x.first ≤ y.first then x :: y :: ys else y :: insertRun x ys

/-- The store map: every run held, in ascending order of first block (R81). -/
def storeMap (records : List RuntimeRecord) : List Run :=
  (records.flatMap recordRuns).foldr insertRun []

/-- The free gaps of a map from block `pos` up, as first block and length (R81). -/
def freeGaps (pos : Nat) : List Run → List (Nat × Nat)
  | [] => if pos < Config.storeBlocks then [(pos, Config.storeBlocks - pos)] else []
  | r :: rs => (if pos < r.first then [(pos, r.first - pos)] else []) ++ freeGaps (r.first + r.count) rs

/-- The first block of the first free gap long enough (R82). -/
def firstFit (need : Nat) (map : List Run) : Option Nat :=
  ((freeGaps 0 map).find? (fun g => need ≤ g.2)).map (·.1)

/-- Blocks that runs hold. -/
def blocksHeld (map : List Run) : Nat := (map.map (·.count)).sum

/-- The longest of some free gaps; of two equal ones the lower (R102). -/
def longestGap : List (Nat × Nat) → Option (Nat × Nat)
  | [] => none
  | g :: gs => match longestGap gs with
    | none => some g
    | some h => if h.2 ≤ g.2 then some g else some h

/-- The store summary (R102). -/
def storeSummary (records : List RuntimeRecord) : StoreSummary :=
  let map := storeMap records
  let gaps := freeGaps 0 map
  { held := blocksHeld map, free := Config.storeBlocks - blocksHeld map, gaps := gaps.length,
    longest := longestGap gaps }

/-! ## Placement (R82, R83) -/

/-- A buffer that has just been placed: every row not valid (R80, R87). -/
def newBuffer (label : Label) (first count height : Nat) : Buffer :=
  { label := label, first := first, count := count, valid := List.replicate height false }

/-- Place one buffer of a region: its first block, and the map with its run in it. -/
def placeBuffer (map : List Run) (r : Region) (label : Label) : Option (Buffer × List Run) :=
  let need := blocks r.width r.height
  match firstFit need map with
  | none => none
  | some first =>
    some (newBuffer label first need r.height,
      insertRun { first := first, count := need, tag := r.tag, role := .pending, label := label } map)

/-- Place the buffers of one region: none for STREAMED, A for SINGLE, A before B for DOUBLE. -/
def placeRegion (map : List Run) (r : Region) : Option (Option Buffers × List Run) :=
  match r.content with
  | .streamed => some (none, map)
  | .single =>
    match placeBuffer map r .a with
    | none => none
    | some (a, map1) =>
      some (some { front := a, back := none, backState := .idle, flipped := false, clearDue := none }, map1)
  | .double =>
    match placeBuffer map r .a with
    | none => none
    | some (a, map1) =>
      match placeBuffer map1 r .b with
      | none => none
      | some (b, map2) =>
        some (some { front := a, back := some b, backState := .idle, flipped := false, clearDue := none }, map2)

/-- An allocation request (R82): the regions named, in order, each with its buffers; none when some buffer finds no gap
(R83), and then nothing has been taken. -/
def allocate (map : List Run) : List Region → Option (List (Region × Option Buffers))
  | [] => some []
  | r :: rs =>
    match placeRegion map r with
    | none => none
    | some (bufs, map1) => (allocate map1 rs).map ((r, bufs) :: ·)

/-! ## Resolution of a line or mark (R71) -/

/-- The record of a layout's region with a tag. -/
def recordWithTag (t : Nat) (rs : List RuntimeRecord) : Option RuntimeRecord := rs.find? (fun r => r.region.tag = t)

/-- Resolve an epoch and tag (R71). -/
def resolve (e : Engine) (epoch : Word) (tag : Byte) : Option RuntimeRecord :=
  match tagOfByte tag with
  | none => none
  | some t =>
    if pendingEpoch e = some epoch then recordWithTag t (pendingRecords e)
    else
      match recordWithTag t (activeRecords e) with
      | none => none
      | some r => if r.entryEpoch ≤ epoch ∧ epoch ≤ e.activeEpoch then some r else none

/-! ## Changing a record -/

/-- Whether two records are one: a tag and membership name one record (R69). -/
def sameRecord (r q : RuntimeRecord) : Bool := r.region.tag == q.region.tag && r.membership == q.membership

/-- Change the record that `key` is. -/
def updateRecord (key : RuntimeRecord) (f : RuntimeRecord → RuntimeRecord) (s : State) : State :=
  { s with engine :=
      { s.engine with records := s.engine.records.map (fun r => if sameRecord key r then f r else r) } }

/-- Change the buffers a record holds. -/
def modBuffers (f : Buffers → Buffers) (r : RuntimeRecord) : RuntimeRecord := { r with buffers := r.buffers.map f }

/-- Open the gate of a region of the active layout (R74); a region of the pending layout alone keeps its own. -/
def openGate (r : RuntimeRecord) : RuntimeRecord :=
  if r.membership = .pending then r else { r with gate := .opened }

/-! ## Stored lines (R88 to R90) -/

/-- The pixel address of a buffer's local row (R80, log 12). -/
def rowAddress (b : Buffer) (width row : Nat) : Nat := b.first * Config.blockPixels + row * width

/-- Whether a buffer's row is valid. -/
def rowValid (b : Buffer) (row : Nat) : Bool := b.valid.getD row false

/-- A row becomes valid (R87). -/
def markValid (row : Nat) (b : Buffer) : Buffer := { b with valid := b.valid.set row true }

/-- Every row becomes not valid (R87). -/
def clearRows (b : Buffer) : Buffer := { b with valid := b.valid.map (fun _ => false) }

/-- The count of valid rows (R87). -/
def validRows (b : Buffer) : Nat := b.valid.count true

/-- The memory after a line is written into a row of a SINGLE buffer: the other columns of a row that was not valid take
the fill colour first (R89). -/
def writeSingle (m : List PixelCell) (r : Region) (b : Buffer) (row offset : Nat) (px : List Colour) : List PixelCell :=
  let base := rowAddress b r.width row
  let m1 := if rowValid b row then m else writePixels m base (List.replicate r.width r.fill)
  writePixels m1 (base + offset) px

/-- A stored line that passed checks 1 and 2 of R88: checks 3 to 5, and the write of R89 or R90. -/
def storeLine (l : Link) (r : RuntimeRecord) (p : Line) (s : State) : State :=
  let row := p.row.toNat
  let offset := p.offset.toNat
  let n := p.pixels.length
  if ¬ (row < r.region.height ∧ 1 ≤ n ∧ offset + n ≤ r.region.width) then countOn l .malformed 1 s
  else
    match r.buffers with
    | none => countOn l .malformed 1 s
    | some bufs =>
      match bufs.back with
      | none =>
        let s1 := { s with store := writeSingle s.store r.region bufs.front row offset p.pixels }
        updateRecord r (fun q => openGate (modBuffers (fun b => { b with front := markValid row b.front }) q)) s1
      | some back =>
        if ¬ (offset = 0 ∧ n = r.region.width) then countOn l .malformed 1 s
        else if bufs.backState ≠ .writing then countOn l .malformed 1 s
        else
          let s1 := { s with store := writePixels s.store (rowAddress back r.region.width row) p.pixels }
          updateRecord r (modBuffers (fun b => { b with back := b.back.map (markValid row) })) s1

/-! ## Flips and frame marks (R91 to R96) -/

/-- The exchange of a flip (R94): front and back change roles, the back is IDLE and the flip flag set. -/
def flipBuffers (b : Buffers) : Buffers :=
  match b.back with
  | none => b
  | some back => { b with front := back, back := some b.front, backState := .idle, flipped := true }

/-- A flip with its report to the transition engine, which opens the gate of an active region (R74, R94). -/
def flipRecord (r : RuntimeRecord) : RuntimeRecord := openGate (modBuffers flipBuffers r)

/-- Whether a record is STORED DOUBLE. -/
def isDouble (r : RuntimeRecord) : Bool := r.region.content = .double

/-- The back state of a DOUBLE record. -/
def backStateOf (r : RuntimeRecord) : BackState := (r.buffers.map (·.backState)).getD .idle

/-- A BEGIN that passed R91 (R92). -/
def beginFrame (r : RuntimeRecord) (s : State) : State :=
  updateRecord r (modBuffers (fun b => { b with back := b.back.map clearRows, backState := .writing })) s

/-- An END that passed R91: COMPLETE for a region of the active layout (R93), a flip at once for one of the pending
layout alone (R96). -/
def endFrame (r : RuntimeRecord) (s : State) : State :=
  if r.membership = .pending then updateRecord r flipRecord s
  else updateRecord r (modBuffers (fun b => { b with backState := .complete })) s

/-- Clear the rows of the buffer with a label. -/
def clearLabel (lab : Label) (b : Buffers) : Buffers :=
  { b with
    front := if b.front.label = lab then clearRows b.front else b.front
    back := b.back.map (fun k => if k.label = lab then clearRows k else k) }

/-- A front clear that is due is carried out (R95, R100). -/
def clearIfDue (b : Buffers) : Buffers :=
  match b.clearDue with
  | none => b
  | some lab => { clearLabel lab b with clearDue := none }

/-- The store's handling of a frame start for one record (R95): a due front clear, then the flip of a COMPLETE back. A
region of the pending layout alone is left as it is. -/
def frameRecord (r : RuntimeRecord) : RuntimeRecord :=
  if r.membership = .pending then r
  else
    let r1 := modBuffers clearIfDue r
    if isDouble r1 ∧ backStateOf r1 = .complete then flipRecord r1 else r1

/-- The store's handling of a frame start (R95). -/
def storeFrame (s : State) : State :=
  { s with engine := { s.engine with records := s.engine.records.map frameRecord } }

/-! ## Clearing a region (R98 to R100) -/

/-- Whether a record holds a buffer that a REGION-CLEAR names (R98, check 4). -/
def holdsNamed (w : Which) (r : RuntimeRecord) : Bool :=
  match r.region.content with
  | .streamed => false
  | .single => w ≠ .back
  | .double => true

/-- The effect of a REGION-CLEAR on one record it acts on (R99, R100). -/
def clearRecord (w : Which) (r : RuntimeRecord) : RuntimeRecord :=
  modBuffers (fun b =>
    let b1 := if w ≠ .front then
        { b with back := b.back.map clearRows, backState := if b.back.isSome then .idle else b.backState }
      else b
    if w = .back then b1
    else if b.back.isNone ∨ r.membership = .pending then { b1 with front := clearRows b1.front }
    else { b1 with clearDue := some b1.front.label }) r

/-- What the response says of one record acted on (R98, R100). -/
def clearEntry (w : Which) (r : RuntimeRecord) : ClearEntry :=
  { membership := r.membership
    front := if w = .back then none else
      r.buffers.map (fun b => (b.front.label, b.back.isSome && decide (r.membership ≠ .pending)))
    back := if w = .front then none else r.buffers.bind (fun b => b.back.map (·.label)) }

end Sys2Proof.Machine
end

