-- ==== Sys2Proof/Machine/Transitions.lean ====
section
/-! DEFINITION. The transition engine (chapter 3): requests, announcement, acknowledgement, the switch with its reports,
withdrawal and supersede, and the abort of a running command. -/

namespace Sys2Proof.Machine

/-! ## Carried regions (R52) -/

/-- Whether a region of the active layout carries into a region of the pending layout: same tag, owner, kind,
buffering, width and height (R52). -/
def carries (old new : Region) : Bool :=
  decide (old.tag = new.tag ∧ old.owner = new.owner ∧ old.content = new.content ∧ old.width = new.width
    ∧ old.height = new.height)

/-- Whether a pending region is carried from these active records. -/
def isCarried (active : List RuntimeRecord) (new : Region) : Bool := active.any (fun r => carries r.region new)

/-- The regions of a layout that are not carried, in its order. -/
def uncarried (active : List RuntimeRecord) (rs : List Region) : List Region :=
  rs.filter (fun r => !isCarried active r)

/-! ## Announcement (R54, R55) -/

/-- A new runtime record (R69). -/
def newRecord (epoch : Word) (p : Region × Option Buffers) : RuntimeRecord :=
  { region := p.1, membership := .pending, gate := .closed, entryEpoch := epoch, buffers := p.2 }

/-- A record of the active layout at an announcement: BOTH when it carries into the pending layout (R54, R84). -/
def markCarried (rs : List Region) (r : RuntimeRecord) : RuntimeRecord :=
  if rs.any (carries r.region) then { r with membership := .both } else r

/-- The links that are not OFFLINE and own a region of the pending layout (R54). -/
def ackSetFor (s : State) (rs : List Region) : LinkSet :=
  let member (l : Link) : Bool := decide ((s.port l).state ≠ .offline) && rs.any (fun r => r.owner = some l)
  ⟨member .a, member .b⟩

/-- Whether a set of links has a member. -/
def nonempty (x : LinkSet) : Bool := x.a || x.b

/-- The pending transition an announcement makes (R54). -/
def pendingFor (n : SlotNo) (cause : Cause) (requester : Option Link) (layout : Layout) (s : State) : Pending :=
  let acks := ackSetFor s layout.regions
  { slot := n, generation := layout.generation, backdrop := layout.backdrop, regions := layout.regions,
    epoch := s.engine.epochCounter + 1, cause := cause, requester := requester, ackSet := acks,
    acked := ⟨false, false⟩, window := s.engine.ackFrames, armed := !nonempty acks }

/-- The ANNOUNCE notice for a link (R55). -/
def announceNotice (p : Pending) (l : Link) (s : State) : Notice :=
  .announce
    { epoch := p.epoch, slot := p.slot, generation := p.generation, cause := p.cause,
      posture := s.posture.posture, face := s.posture.face, ownedTags := ownedTags l p.regions,
      deadline := s.scan.frame + BitVec.ofNat 32 s.engine.ackFrames, ackExpected := p.ackSet.get l }

/-- The announcement's effects on the engine (R54). -/
def announcedEngine (p : Pending) (placed : List (Region × Option Buffers)) (e : Engine) : Engine :=
  { e with
    epochCounter := p.epoch
    pending := some p
    records := e.records.map (markCarried p.regions) ++ placed.map (newRecord p.epoch) }

/-- An announcement (R54, R55). -/
def announce (n : SlotNo) (cause : Cause) (requester : Option Link) (layout : Layout)
    (placed : List (Region × Option Buffers)) (s : State) : State :=
  let p := pendingFor n cause requester layout s
  let s1 := { s with engine := announcedEngine p placed s.engine }
  notify .b (announceNotice p .b s) (notify .a (announceNotice p .a s) s1)

/-! ## Requests (R51) -/

/-- The engine's answer to a request taken in STEADY. -/
inductive RequestResult where
  | announced
  | storeFull (need : Nat)
  | exhausted
deriving DecidableEq, Repr

/-- The last value of the epoch counter (R48). -/
def lastEpoch : Word := 0xFFFFFFFF

/-- A request taken in STEADY (R51): the epoch check, the carried set, the allocation, and the announcement. -/
def steadyRequest (n : SlotNo) (cause : Cause) (requester : Option Link) (s : State) : State × RequestResult :=
  if s.engine.epochCounter = lastEpoch then (s, .exhausted)
  else
    let layout := s.slots.slots.get n
    let new := uncarried (activeRecords s.engine) layout.regions
    match allocate (storeMap s.engine.records) new with
    | none => (s, .storeFull (layoutNeed new))
    | some placed => (announce n cause requester layout placed s, .announced)

/-! ## Withdrawal (R62) -/

/-- A record at a withdrawal: a carried one returns to the active layout alone. -/
def returnCarried (r : RuntimeRecord) : RuntimeRecord :=
  if r.membership = .both then { r with membership := .active } else r

/-- The withdrawal's effects on the engine: pending-only records go with their runs, carried ones stay (R62, R86). -/
def withdrawnEngine (e : Engine) : Engine :=
  { e with pending := none, records := (activeRecords e).map returnCarried }

/-- The status that ends a SWITCH whose transition is withdrawn (R62). -/
def withdrawStatus : WithdrawReason → Status
  | .superseded => .superseded
  | .aborted => .aborted

/-- A withdrawal (R62); `quiet` leaves the waiting SWITCH without its response. -/
def withdraw (reason : WithdrawReason) (quiet : Bool) (s : State) : State :=
  match s.engine.pending with
  | none => s
  | some p =>
    let s1 := { s with engine := withdrawnEngine s.engine }
    let s2 := notifyBoth (.withdrawn p.epoch p.slot reason) s1
    match p.requester with
    | none => s2
    | some l => if quiet then emptySlot l s2 else finish l (withdrawStatus reason) (.epoch p.epoch) s2

/-! ## Follow requests (R49, R63) -/

/-- The outcome the posture monitor makes of the engine's answer (R42). -/
def outcomeOf : RequestResult → FollowOutcome
  | .announced => .announced
  | .storeFull _ => .storeFull
  | .exhausted => .exhausted

/-- A follow request (R51, R63). -/
def followRequest (n : SlotNo) (cause : Cause) (s : State) : State × FollowOutcome :=
  match s.engine.pending with
  | none => ((steadyRequest n cause none s).1, outcomeOf (steadyRequest n cause none s).2)
  | some _ =>
    let s1 := withdraw .superseded false s
    if s1.engine.active.slot = some n then (s1, .none)
    else ((steadyRequest n cause none s1).1, outcomeOf (steadyRequest n cause none s1).2)

/-! ## The switch (R59 to R61) -/

/-- The gate of a new record at the switch (R73). -/
def gateAtSwitch (r : RuntimeRecord) : Gate :=
  match r.region.content, r.buffers with
  | .double, some b => if b.flipped then .opened else .closed
  | .single, some b => if 0 < validRows b.front then .opened else .closed
  | _, _ => .closed

/-- A record of the pending layout at the switch (R60): a carried one takes the committed fields of the pending
layout's region; a new one has its gate set. Both become ACTIVE. -/
def switchRecord (new : Region) (r : RuntimeRecord) : RuntimeRecord :=
  if r.membership = .both then { r with region := new, membership := .active }
  else { r with membership := .active, gate := gateAtSwitch r }

/-- The records after the switch, in the new layout's order: those of the pending layout; the others go, and their
runs with them (R60, R85). -/
def switchedRecords (rs : List Region) (records : List RuntimeRecord) : List RuntimeRecord :=
  rs.filterMap (fun new =>
    (recordWithTag new.tag (records.filter (fun r => r.membership ≠ .active))).map (switchRecord new))

/-- The switch's effects on the engine (R59). -/
def switchedEngine (p : Pending) (e : Engine) : Engine :=
  { e with
    active := { slot := some p.slot, generation := p.generation, backdrop := p.backdrop }
    activeEpoch := p.epoch
    pending := none
    records := switchedRecords p.regions e.records }

/-- The tags of the carried regions (R61). -/
def carriedTags (e : Engine) : List Nat :=
  (e.records.filter (fun r => r.membership = .both)).map (·.region.tag)

/-- The touch ids in order, 0 to 9. -/
def touchIds : List TouchId := [0, 1, 2, 3, 4, 5, 6, 7, 8, 9]

/-- Set one entry of the contact table. -/
def setContact (c : TouchId) (x : Contact) (s : State) : State :=
  { s with touch := { s.touch with contacts := s.touch.contacts.set c.val x c.isLt } }

/-- Cancel one contact (R139, R140): a BOUND entry whose tag is not kept is told to its owner and becomes DISCARD. -/
def cancelContact (reason : CancelReason) (keep : List Nat) (s : State) (c : TouchId) : State :=
  match s.touch.contacts.get c with
  | .bound tag owner u v =>
    if keep.contains tag then s
    else setContact c .discard (notify owner (.cancel c tag u v s.engine.activeEpoch reason) s)
  | _ => s

/-- Cancel the BOUND contacts whose tags are not kept, in order of touch id (R139, R140). -/
def cancelContacts (reason : CancelReason) (keep : List Nat) (s : State) : State :=
  touchIds.foldl (cancelContact reason keep) s

/-- The running WAIT for EPOCH of a link completes at the switch (R153). -/
def epochWaitDone (l : Link) (results : Results) (s : State) : State :=
  match (s.port l).slot with
  | some (.waitEpoch _) => finish l .ok results s
  | _ => s

/-- The SWITCH of the requesting link, if there is one, completes at the switch (R64). -/
def switchDone (who : Option Link) (results : Results) (s : State) : State :=
  match who with
  | none => s
  | some l => finish l .ok results s

/-- The switch with its reports (R59, R61): the engine, the ACTIVE notices, the touch router, the stalled flag, the
waiting SWITCH, the WAITs for EPOCH. -/
def makeSwitch (late : LinkSet) (s : State) : State :=
  match s.engine.pending with
  | none => s
  | some p =>
    let results : Results := .switched p.epoch p.slot s.scan.frame
    let s1 := { s with engine := switchedEngine p s.engine }
    let s2 := notifyBoth (.active p.epoch p.slot p.generation s.scan.frame late) s1
    let s3 := cancelContacts .switch (carriedTags s.engine) s2
    let s4 := { s3 with posture := { s3.posture with stalled := false } }
    epochWaitDone .b results (epochWaitDone .a results (switchDone p.requester results s4))

/-- The links of the ack set that have not acknowledged (R58). -/
def lateSet (p : Pending) : LinkSet := ⟨p.ackSet.a && !p.acked.a, p.ackSet.b && !p.acked.b⟩

/-- Set the ack window counter. -/
def setWindow (n : Nat) (s : State) : State :=
  { s with engine := { s.engine with pending := s.engine.pending.map (fun p => { p with window := n }) } }

/-- The engine's handling of a frame start (R58). -/
def engineFrame (s : State) : State :=
  match s.engine.pending with
  | none => s
  | some p =>
    if p.armed then makeSwitch ⟨false, false⟩ s
    else if p.window ≤ 1 then makeSwitch (lateSet p) s
    else setWindow (p.window - 1) s

/-! ## Aborts (R65 to R68, R154, R155) -/

/-- End the running command of a link by an abort: a SWITCH's transition is withdrawn, a WAIT is answered ABORTED; with
`quiet` the command has no response. -/
def abortRunning (l : Link) (quiet : Bool) (s : State) : State :=
  match (s.port l).slot with
  | none => s
  | some (.switch _) => withdraw .aborted quiet s
  | some _ => if quiet then emptySlot l s else finish l .aborted .none s

/-- An armed abort acts when its condition comes; any other is left (R155). -/
def abortArmed (c : ArmCondition) (l : Link) (s : State) : State :=
  match (s.port l).armed with
  | none => s
  | some a => if a.condition = c then abortRunning l a.quiet s else s

end Sys2Proof.Machine
end

