-- ==== Sys2Proof/Machine/ScanEvents.lean ====
section
/-! DEFINITION. The scan engine (chapter 5): a row built from its segments (R108 to R111), streamed lines (R112 to
R116), the cutoff latch (R119 to R122), SET-RATE (R107). -/

namespace Sys2Proof.Machine

/-- Change the scan engine. -/
def modScan (f : Scan → Scan) (s : State) : State := { s with scan := f s.scan }

/-! ## Segments (R108) -/

/-- Whether a region's rows include row `r`. -/
def crossesRow (r : Nat) (g : Region) : Bool := decide (g.row0 ≤ r ∧ r < g.row0 + g.height)

/-- Put a record into a list in ascending order of col0. -/
def insertByColumn (x : RuntimeRecord) : List RuntimeRecord → List RuntimeRecord
  | [] => [x]
  | y :: ys => if x.region.col0 ≤ y.region.col0 then x :: y :: ys else y :: insertByColumn x ys

/-- The segments of row `r`: the active records whose rows include it, in ascending order of col0. -/
def rowSegments (r : Nat) (e : Engine) : List RuntimeRecord :=
  ((activeRecords e).filter (fun q => crossesRow r q.region)).foldr insertByColumn []

/-! ## Streamed lines (R112 to R116) -/

/-- The distance of a frame tag from the current frame: (frame tag - cur) mod 256 (R112). -/
def frameDistance (frameTag : Byte) (frame : Word) : Nat := (frameTag - frame.setWidth 8).toNat

/-- What an examination decides of the head line (R113). -/
inductive Judgement where
  | discard
  | wait
  | consume
deriving DecidableEq, Repr

/-- Whether a line lies within a streamed record of its link (R113, step 1). -/
def fitsStreamed (l : Link) (g : Region) (p : Line) : Bool :=
  decide (g.content = .streamed ∧ g.owner = some l ∧ p.row.toNat < g.height
    ∧ p.offset.toNat + p.pixels.length ≤ g.width)

/-- A position held against another, row first and then column (R113, step 5). -/
def comparePosition (row col atRow atCol : Nat) : Judgement :=
  if row < atRow ∨ (row = atRow ∧ col < atCol) then .discard
  else if row = atRow ∧ col = atCol then .consume
  else .wait

/-- One examination of the head line at position (row, col) (R113). -/
def judge (e : Engine) (frame : Word) (l : Link) (row col : Nat) (p : Line) : Judgement :=
  match resolve e p.epoch p.tag with
  | none => .discard
  | some r =>
    if !fitsStreamed l r.region p then .discard
    else if pendingEpoch e = some p.epoch then .wait
    else if 128 ≤ frameDistance p.frameTag frame then .discard
    else if 1 ≤ frameDistance p.frameTag frame then .wait
    else comparePosition (r.region.row0 + p.row.toNat) r.region.col0 row col

/-- What the examinations at one position leave: the queue, the consumed line, and how many lines were discarded. -/
structure Examined where
  queue : List Line
  consumed : Option Line
  discarded : Nat
deriving DecidableEq, Repr

/-- Examine the head, and the new head after each discard (R113). -/
def examine (e : Engine) (frame : Word) (l : Link) (row col : Nat) : List Line → Examined
  | [] => { queue := [], consumed := none, discarded := 0 }
  | p :: ps =>
    match judge e frame l row col p with
    | .wait => { queue := p :: ps, consumed := none, discarded := 0 }
    | .consume => { queue := ps, consumed := some p, discarded := 0 }
    | .discard =>
      let x := examine e frame l row col ps
      { x with discarded := x.discarded + 1 }

/-- The examinations at a position on a link's port: lines removed, HOLD set, STALE counted (R113, R114, R150). -/
def examineOn (l : Link) (row col : Nat) (s : State) : State × Option Line :=
  let x := examine s.engine s.scan.frame l row col (s.port l).stream
  (s.modPort l (fun p => Port.count .stale x.discarded (p.setStream x.queue)), x.consumed)

/-- The pixels of a segment for which a line is consumed (R114). -/
def linePixels (g : Region) (p : Line) : List Colour :=
  List.replicate p.offset.toNat g.fill ++ p.pixels
    ++ List.replicate (g.width - p.offset.toNat - p.pixels.length) g.fill

/-- A waiting segment counts LATE on its owner when its gate is OPEN, the port ONLINE and the latch CLEAR (R115). -/
def countLate (l : Link) (r : RuntimeRecord) (s : State) : State :=
  if r.gate = .opened ∧ (s.port l).state = .online ∧ s.scan.latch = .clear then countOn l .late 1 s else s

/-- A STREAMED segment owned by a link (R113 to R115). -/
def scanStreamed (l : Link) (row : Nat) (r : RuntimeRecord) (s : State) : State × List Colour :=
  match examineOn l row r.region.col0 s with
  | (s1, some p) => (updateRecord r openGate s1, linePixels r.region p)
  | (s1, none) => (countLate l r s1, List.replicate r.region.width r.region.fill)

/-! ## Stored segments (R110) -/

/-- The local row of a panel row (R110). -/
def localRow (g : Region) (row : Nat) : Nat :=
  match g.orientation with
  | .upright => row - g.row0
  | .turned => g.height - 1 - (row - g.row0)

/-- The pixels of a STORED segment (R109, R110). -/
def storedPixels (store : List PixelCell) (row : Nat) (r : RuntimeRecord) : List Colour :=
  let g := r.region
  match r.buffers with
  | none => List.replicate g.width g.fill
  | some b =>
    if r.gate = .closed ∨ rowValid b.front (localRow g row) = false then List.replicate g.width g.fill
    else
      let px := readPixels store (rowAddress b.front g.width (localRow g row)) g.width
      match g.orientation with
      | .upright => px
      | .turned => px.reverse

/-! ## A row (R108, R109) -/

/-- One segment of a row: what it does and the pixels it gives. -/
def scanSegment (row : Nat) (r : RuntimeRecord) (s : State) : State × List Colour :=
  match r.region.owner, r.region.content with
  | none, _ => (s, List.replicate r.region.width r.region.fill)
  | some l, .streamed => scanStreamed l row r s
  | some _, _ => (s, storedPixels s.store row r)

/-- The segments of a row in order, each with its leftmost column and pixels. -/
def scanSegments (row : Nat) : List RuntimeRecord → State → State × List (Nat × List Colour)
  | [], s => (s, [])
  | r :: rs, s =>
    let x := scanSegment row r s
    let y := scanSegments row rs x.1
    (y.1, (r.region.col0, x.2) :: y.2)

/-- The row's pixels from column `col` on: the segments, and the backdrop in the gaps (R108). -/
def assembleRow (backdrop : Colour) (col : Nat) : List (Nat × List Colour) → List Colour
  | [] => List.replicate (Config.panelColumns - col) backdrop
  | (c, px) :: rest => List.replicate (c - col) backdrop ++ px ++ assembleRow backdrop (c + px.length) rest

/-- The row as sent: black while the cutoff is latched (R109). -/
def sentRow (latch : Latch) (px : List Colour) : List Colour :=
  if latch = .clear then px else List.replicate Config.panelColumns Colour.black

/-- The examination of a link's queue at the end of a row, behind every position of it (R116). -/
def endOfRow (l : Link) (row : Nat) (s : State) : State := (examineOn l row Config.panelColumns s).1

/-- The row after row `r`: BLANKING after the last (R105). -/
def rowAfter (r : Nat) : Option Nat := if r + 1 < Config.panelRows then some (r + 1) else none

/-- The scan of row `row` (R108 to R116). -/
def scanRow (row : Nat) (s : State) : State :=
  let x := scanSegments row (rowSegments row s.engine) s
  let px := sentRow s.scan.latch (assembleRow s.engine.active.backdrop 0 x.2)
  let s1 := endOfRow .b row (endOfRow .a row x.1)
  { s1 with
    scan := { s1.scan with row := rowAfter row }
    outputs := { s1.outputs with panelRow := some (row, px) } }

/-- ROW_SCAN (R108): the current row; in BLANKING no row is scanned (R105). -/
def execRowScan (s : State) : Answer :=
  .next (unlessHeld (fun s => match s.scan.row with
    | none => s
    | some row => scanRow row s) s)

/-- The rows of the current frame that are left, scanned in order, at most `fuel` of them (R105). -/
def scanRowsLeft : Nat → State → State
  | 0, s => s
  | fuel + 1, s =>
    match s.scan.row with
    | none => s
    | some row => scanRowsLeft fuel (scanRow row s)

/-- The current frame scanned to its end: BLANKING (R105). -/
def finishFrame (s : State) : State := scanRowsLeft Config.panelRows s

/-! ## The cutoff latch (R119 to R122) -/

/-- An assertion of CUTOFF (R119, R140). -/
def cutoffEffect (s : State) : State :=
  let s1 := modScan (fun c => { c with latch := .latched }) { s with cutoffInput := true }
  cancelContacts .cutoff [] (notifyBoth (.cutoff true s.scan.frame) s1)

/-- CUTOFF_ASSERT (R119). -/
def execCutoffAssert (s : State) : Answer := .next (unlessHeld cutoffEffect s)

/-- RESUME once the command slot has let it through, the input's level as given (R121). -/
def resumeEffect (l : Link) (tag : Byte) (cutoff : Bool) (s : State) : State :=
  if s.scan.latch = .clear then answer l tag .resume .ok .none s
  else if cutoff then answer l tag .resume .cutoffActive .none s
  else answer l tag .resume .ok (.frame s.scan.frame) (modScan (fun c => { c with latch := .clearDue }) s)

/-- RESUME (R121). The level of CUTOFF that it reads is kept as the last known (log 3). -/
def execResume (l : Link) (tag : Byte) (cutoff : Bool) (s : State) : Answer :=
  .next (unlessHeld (fun s =>
    slotCommand l tag .resume (resumeEffect l tag cutoff) { s with cutoffInput := cutoff }) s)

/-! ## SET-RATE (R107) -/

/-- SET-RATE once the command slot has let it through (R107). -/
def setRateEffect (l : Link) (tag rate : Byte) (s : State) : State :=
  match rateOfByte rate with
  | none => answer l tag .setRate .badParam .none s
  | some r => answer l tag .setRate .ok (.rates s.scan.rate r) (modScan (fun c => { c with nextRate := r }) s)

/-- SET-RATE (R107). -/
def execSetRate (l : Link) (tag rate : Byte) (s : State) : Answer :=
  .next (slotCommand l tag .setRate (setRateEffect l tag rate) s)

end Sys2Proof.Machine
end

