-- ==== Sys2Proof/Machine/FrameEvents.lean ====
section
/-! DEFINITION. The frame start (R106) and the three events that fall at one: the expiry of the ack window (R58), the
detection of a quiet link (R148), the completion of a WAIT for FRAME (R153). -/

namespace Sys2Proof.Machine

/-- The scan engine's own part of a frame start (R106): the counter, SYNC, the next rate, row 0, and a due clear of the
cutoff latch with its notices (R122). -/
def scanFrame (s : State) : State :=
  let s1 := modScan (fun c =>
    { c with
      frame := c.frame + 1
      row := some 0
      rate := c.nextRate
      latch := if c.latch = .clearDue then .clear else c.latch }) s
  let s2 := { s1 with outputs := { s1.outputs with syncPulses := s1.outputs.syncPulses + 1 } }
  if s.scan.latch = .clearDue then notifyBoth (.cutoff false s2.scan.frame) s2 else s2

/-- Quiet counting at a frame start (R148). -/
def countQuiet (p : Port) : Port :=
  if p.state = .online then
    { p with quiet := p.quiet + 1, state := if p.quiet + 1 = p.quietFrames then .quiet else .online }
  else p

/-- A running WAIT for FRAME at a frame start (R153): the count falls by 1, and at 0 the WAIT completes. -/
def frameWait (l : Link) (s : State) : State :=
  match (s.port l).slot with
  | some (.waitFrame tag n) =>
    if n ≤ 1 then finish l .ok (.frame s.scan.frame) s
    else s.modPort l (fun p => { p with slot := some (.waitFrame tag (n - 1)) })
  | _ => s

/-- A link port's handling of a frame start (R148, R153, R155). -/
def portFrame (l : Link) (s : State) : State :=
  abortArmed .atFrame l (frameWait l (s.modPort l countQuiet))

/-- The aborts armed AT_FRAME that are taken ahead of the rest of the frame start (R67, R155). -/
def abortIfFirst (l : Link) (first : Bool) (s : State) : State := if first then abortArmed .atFrame l s else s

/-- A frame start (R106): the scan engine's part, then the store, the transition engine and the two ports; an AT_FRAME
abort is taken first on the links named and last on the others. The order of store and engine has no effect (R97). Rows
of the frame that are still to be scanned are scanned ahead of it, since every row is scanned before the next frame
start (R105; log 9). -/
def frameStart (abortsFirst : LinkSet) (s : State) : State :=
  let s1 := scanFrame (finishFrame s)
  let s2 := abortIfFirst .b abortsFirst.b (abortIfFirst .a abortsFirst.a s1)
  let s3 := engineFrame (storeFrame s2)
  portFrame .b (portFrame .a s3)

/-- FRAME_START (R106). -/
def execFrameStart (abortsFirst : LinkSet) (s : State) : Answer := .next (unlessHeld (frameStart abortsFirst) s)

/-- No abort is taken first. -/
def completionsFirst : LinkSet := ⟨false, false⟩

/-- Whether the next frame start is the one at which the ack window runs out (R58). -/
def windowEnding (s : State) : Bool :=
  match s.engine.pending with
  | none => false
  | some p => !p.armed && decide (p.window ≤ 1)

/-- ACK_WINDOW_EXPIRY (R58): the frame start at which the ack window counter falls to 0; no effect when the next frame
start is not that one (log 8). -/
def execAckWindowExpiry (s : State) : Answer :=
  .next (unlessHeld (fun s => if windowEnding s then frameStart completionsFirst s else s) s)

/-- Whether the next frame start makes a port QUIET (R148). -/
def quietComing (p : Port) : Bool := decide (p.state = .online ∧ p.quiet + 1 = p.quietFrames)

/-- QUIET_DETECT (R148): the frame start at which the link's quiet counter reaches QUIET_FRAMES; no effect when the next
frame start is not that one (log 8). -/
def execQuietDetect (l : Link) (s : State) : Answer :=
  .next (unlessHeld (fun s => if quietComing (s.port l) then frameStart completionsFirst s else s) s)

/-- Whether the next frame start completes a link's WAIT for FRAME (R153). -/
def waitEnding (p : Port) : Bool :=
  match p.slot with
  | some (.waitFrame _ n) => decide (n ≤ 1)
  | _ => false

/-- WAIT_FRAME_DONE (R153): the frame start at which the link's WAIT for FRAME completes; no effect when the next frame
start is not that one (log 8). -/
def execWaitFrameDone (l : Link) (s : State) : Answer :=
  .next (unlessHeld (fun s => if waitEnding (s.port l) then frameStart completionsFirst s else s) s)

end Sys2Proof.Machine
end

