-- ==== Sys2Proof/Machine/EngineCommands.lean ====
section
/-! DEFINITION. The transition engine's commands (chapter 3): SWITCH (R50), ACK-EPOCH (R56), SET-ACK-WINDOW (R77). -/

namespace Sys2Proof.Machine

/-- A SWITCH that is announced holds its link's command slot (R64). -/
def holdSwitch (l : Link) (tag : Byte) (s : State) : State :=
  s.modPort l (fun p => { p with slot := some (.switch tag) })

/-- SWITCH once the command slot has let it through (R50). -/
def switchEffect (l : Link) (tag slot : Byte) (s : State) : State :=
  match slotOfByte slot with
  | none => answer l tag .switch .badParam .none s
  | some n =>
    if s.engine.pending.isSome then answer l tag .switch .transitionPending .none s
    else if s.engine.active.slot = some n then
      answer l tag .switch .ok (.switched s.engine.activeEpoch n s.scan.frame) s
    else
      match steadyRequest n (.switchBy l) (some l) s with
      | (s1, .announced) => holdSwitch l tag s1
      | (s1, .storeFull need) => answer l tag .switch .storeFull (.need need) s1
      | (s1, .exhausted) => answer l tag .switch .epochExhausted .none s1

/-- SWITCH (R50). -/
def execSwitch (l : Link) (tag slot : Byte) (s : State) : Answer :=
  .next (slotCommand l tag .switch (switchEffect l tag slot) s)

/-- A pending transition after a link's acknowledgement (R56): a link of the ack set joins the acknowledged set, and
the state is ARMED when the set is complete. -/
def acknowledge (l : Link) (p : Pending) : Pending :=
  if p.ackSet.get l then
    let acked := p.acked.set l true
    { p with acked := acked, armed := p.armed || decide (acked = p.ackSet) }
  else p

/-- ACK-EPOCH (R56). -/
def ackEpochEffect (l : Link) (tag : Byte) (epoch : Word) (s : State) : State :=
  match s.engine.pending with
  | none => answer l tag .ackEpoch .badEpoch (.epochs s.engine.activeEpoch none) s
  | some p =>
    if epoch = p.epoch then
      let s1 := { s with engine := { s.engine with pending := some (acknowledge l p) } }
      answer l tag .ackEpoch .ok (.acked epoch (transitionState s1.engine)) s1
    else answer l tag .ackEpoch .badEpoch (.epochs s.engine.activeEpoch (some p.epoch)) s

/-- ACK-EPOCH (R56), immediate. -/
def execAckEpoch (l : Link) (tag : Byte) (epoch : Word) (s : State) : Answer :=
  .next (takeCommand l (ackEpochEffect l tag epoch) s)

/-- SET-ACK-WINDOW once the command slot has let it through (R77). -/
def setAckWindowEffect (l : Link) (tag n : Byte) (s : State) : State :=
  if 1 ≤ n.toNat ∧ n.toNat ≤ 15 then
    answer l tag .setAckWindow .ok (.ackWindow n.toNat s.engine.ackFrames)
      { s with engine := { s.engine with ackFrames := n.toNat } }
  else answer l tag .setAckWindow .badParam .none s

/-- SET-ACK-WINDOW (R77). -/
def execSetAckWindow (l : Link) (tag n : Byte) (s : State) : Answer :=
  .next (slotCommand l tag .setAckWindow (setAckWindowEffect l tag n) s)

end Sys2Proof.Machine
end

