-- ==== Sys2Proof/Machine/Records.lean ====
section
/-! DEFINITION. What the part sends, as bytes (sections 9.1 and 9.3 to 9.6, R168, R169): the fields of section 9.5, the
region record, the 32-byte notice records, and the RESPONSE packet. -/

namespace Sys2Proof.Machine

/-! ## Fields of section 9.5 -/

/-- A one-byte number. -/
def byteOf (n : Nat) : List Byte := [BitVec.ofNat 8 n]

/-- A two-byte number. -/
def halfOfNat (n : Nat) : List Byte := halfBytes (BitVec.ofNat 16 n)

/-- A flag. -/
def flagBytes (b : Bool) : List Byte := if b then [1] else [0]

/-- An epoch that may be absent: 0 then. -/
def epochBytes (e : Option Word) : List Byte := wordBytes (e.getD 0)

/-- A slot number, or 0xFE for none. -/
def slotBytes (n : Option SlotNo) : List Byte :=
  match n with
  | some k => byteOf k.val
  | none => [0xFE]

/-- A binding: a slot number, or 0xFF for HOLD. -/
def bindingBytes : Binding → List Byte
  | .hold => [0xFF]
  | .slot n => byteOf n.val

/-- A desired slot: a slot number, 0xFE none, 0xFF HOLD. -/
def desiredBytes : Desired → List Byte
  | .none => [0xFE]
  | .hold => [0xFF]
  | .slot n => byteOf n.val

/-- H or F: 0xFFFF absent. -/
def valueBytes (v : Option Nat) : List Byte :=
  match v with
  | some n => halfOfNat n
  | none => [0xFF, 0xFF]

/-- A tag list: a count and eight places. -/
def tagListBytes (ts : List Nat) : List Byte :=
  byteOf ts.length ++ (ts.flatMap byteOf ++ List.replicate 8 0).take 8

/-- A link set: 0 neither, 1 A, 2 B, 3 both. -/
def linkSetBytes (x : LinkSet) : List Byte := byteOf ((if x.a then 1 else 0) + (if x.b then 2 else 0))

/-- Owner. -/
def ownerBytes : Option Link → List Byte
  | none => [0]
  | some .a => [1]
  | some .b => [2]

/-- Kind. -/
def kindBytes : Content → List Byte
  | .streamed => [0]
  | .single => [1]
  | .double => [1]

/-- Buffering. -/
def bufferingBytes : Content → List Byte
  | .streamed => [0]
  | .single => [1]
  | .double => [2]

/-- Orientation. -/
def orientationBytes : Orientation → List Byte
  | .upright => [0]
  | .turned => [1]

/-- Touch. -/
def touchBytes : TouchSetting → List Byte
  | .ignore => [0]
  | .route => [1]

/-- Posture. -/
def postureBytes : Posture → List Byte
  | .unknown => [0]
  | .folded => [1]
  | .part => [2]
  | .flat => [3]

/-- Counted candidate: 0xFF absent. -/
def countingBytes : Option Posture → List Byte
  | none => [0xFF]
  | some p => postureBytes p

/-- Face. -/
def faceBytes : Face → List Byte
  | .front => [0]
  | .rear => [1]

/-- Sensor state. -/
def sensorBytes : Sensor → List Byte
  | .none => [0]
  | .ok => [1]
  | .lost => [2]

/-- Transition state. -/
def transitionBytes : TransitionState → List Byte
  | .steady => [0]
  | .announced => [1]
  | .armed => [2]

/-- Cause. -/
def causeBytes : Cause → List Byte
  | .posture => [0]
  | .face => [1]
  | .bind => [2]
  | .switchBy .a => [3]
  | .switchBy .b => [4]

/-- Follow outcome. -/
def outcomeBytes : FollowOutcome → List Byte
  | .announced => [0]
  | .none => [1]
  | .hold => [2]
  | .storeFull => [3]
  | .exhausted => [4]

/-- Reason of a POSTURE notice. -/
def reasonBytes : PostureReason → List Byte
  | .posture => [0]
  | .face => [1]
  | .bind => [2]

/-- Cutoff latch. -/
def latchBytes : Latch → List Byte
  | .clear => [0]
  | .latched => [1]
  | .clearDue => [2]

/-- The rate a RATE value names. -/
def rateHz : Rate → Nat
  | .hz60 => 60
  | .hz90 => 90
  | .hz120 => 120

/-- RATE. -/
def rateBytes (r : Rate) : List Byte := byteOf (rateHz r)

/-- Port state. -/
def portStateBytes : PortState → List Byte
  | .offline => [0]
  | .online => [1]
  | .quiet => [2]

/-- Slot use. -/
def slotUseBytes : SlotUse → List Byte
  | .none => [0]
  | .active => [1]
  | .pending => [2]

/-- Membership and run role. -/
def membershipBytes : Membership → List Byte
  | .active => [0]
  | .pending => [1]
  | .both => [2]

/-- Gate. -/
def gateBytes : Gate → List Byte
  | .closed => [0]
  | .opened => [1]

/-- Back state. -/
def backStateBytes : BackState → List Byte
  | .idle => [0]
  | .writing => [1]
  | .complete => [2]

/-- Buffer label. -/
def labelBytes : Label → List Byte
  | .a => [0]
  | .b => [1]

/-- Running command: code and tag, 0 and 0 when none. -/
def runningBytes : Option Running → List Byte
  | none => [0, 0]
  | some r => [r.code, r.tag]

/-- Armed abort: its condition, 0xFF absent, and the quiet flag. -/
def armedBytes : Option ArmedAbort → List Byte
  | none => [0xFF, 0]
  | some ⟨.atFrame, q⟩ => 1 :: flagBytes q
  | some ⟨.atPosture, q⟩ => 2 :: flagBytes q

/-- Hinge settings, each at its parameter's size (section 9.3): DESIGN CHOICE, since section 9.5 gives them no type
(log 15). -/
def hingeBytes (h : HingeSettings) : List Byte :=
  halfOfNat h.foldEnter ++ halfOfNat h.foldExit ++ halfOfNat h.flatExit ++ halfOfNat h.flatEnter ++ byteOf h.dwell
    ++ halfOfNat h.zero ++ byteOf h.timeout

/-- A calibration, each field at its parameter's size (section 9.3), OX and OY two's complement: DESIGN CHOICE, since
section 9.5 gives them no type (log 15). -/
def calibrationBytes (c : Calibration) : List Byte :=
  halfOfNat c.gx ++ halfOfNat c.gy ++ halfBytes (BitVec.ofInt 16 c.ox) ++ halfBytes (BitVec.ofInt 16 c.oy)

/-- The six bindings: FOLDED, PARTIAL, FLAT, each FRONT and then REAR (log 15). -/
def bindingsBytes (b : Bindings) : List Byte :=
  bindingBytes b.foldedFront ++ bindingBytes b.foldedRear ++ bindingBytes b.partFront ++ bindingBytes b.partRear
    ++ bindingBytes b.flatFront ++ bindingBytes b.flatRear

/-- The eight counters, in the order of R166. -/
def countersBytes (c : Counters) : List Byte :=
  halfBytes c.crcErrors ++ halfBytes c.malformed ++ halfBytes c.overrun ++ halfBytes c.misdirected
    ++ halfBytes c.stale ++ halfBytes c.late ++ halfBytes c.touchDropped ++ halfBytes c.noticeLost

/-! ## Records -/

/-- A region record (section 9.4). -/
def regionBytes (r : Region) : List Byte :=
  byteOf r.tag ++ ownerBytes r.owner ++ kindBytes r.content ++ bufferingBytes r.content ++ halfOfNat r.col0
    ++ halfOfNat r.width ++ halfOfNat r.row0 ++ halfOfNat r.height ++ orientationBytes r.orientation
    ++ r.fill.bytes ++ touchBytes r.touch

/-- A region record that may be missing: 17 zero bytes (section 9.4). -/
def regionOrZeros (r : Option Region) : List Byte := (r.map regionBytes).getD (List.replicate 17 0)

/-- The results of SLOT-READ (R18). -/
def slotReadBytes (i : SlotReadInfo) : List Byte :=
  i.backdrop.bytes ++ halfBytes i.generation ++ byteOf i.regionCount ++ regionOrZeros i.record ++ slotUseBytes i.use
    ++ flagBytes i.locked ++ byteOf i.low.val ++ byteOf i.high.val ++ flagBytes i.outside ++ flagBytes i.freeze

/-- The results of POSTURE-READ (R45). The dwell counter takes the 2 bytes that section 9.5 gives counters (log 15). -/
def postureReadBytes (i : PostureReadInfo) : List Byte :=
  postureBytes i.posture ++ faceBytes i.face ++ valueBytes (i.last.map (·.hinge)) ++ valueBytes (i.last.map (·.filtered))
    ++ halfOfNat i.dwellCount ++ countingBytes i.counting ++ sensorBytes i.sensor ++ desiredBytes i.desired
    ++ flagBytes i.stalled ++ bindingsBytes i.bindings ++ hingeBytes i.settings ++ halfBytes i.rejects
    ++ halfBytes i.touchMalformed

/-- Which buffers an entry of REGION-CLEAR names, as a *which* code (log 15). -/
def clearedCode (e : ClearEntry) : Nat := (if e.front.isSome then 1 else 0) + (if e.back.isSome then 2 else 0)

/-- One entry of a REGION-CLEAR response (R98; log 15): membership, which buffers, the front's label and due flag, the
back's label. -/
def clearEntryBytes (e : ClearEntry) : List Byte :=
  membershipBytes e.membership ++ byteOf (clearedCode e)
    ++ ((e.front.map (fun f => labelBytes f.1 ++ flagBytes f.2)).getD [0, 0]) ++ ((e.back.map labelBytes).getD [0])

/-- The run of a buffer (R102): first block, block count, role, label. -/
def runBytes (m : Membership) (b : Buffer) : List Byte :=
  halfOfNat b.first ++ halfOfNat b.count ++ membershipBytes m ++ labelBytes b.label

/-- The front buffer's items of a REGION-STATUS entry (R102). -/
def frontBytes (b : Buffers) : List Byte :=
  labelBytes b.front.label ++ halfOfNat (validRows b.front) ++ flagBytes (b.clearDue = some b.front.label)

/-- The back buffer's items of a REGION-STATUS entry (R102); zeros for SINGLE. -/
def backBytes (b : Buffers) : List Byte :=
  match b.back with
  | none => List.replicate 5 0
  | some k => labelBytes k.label ++ halfOfNat (validRows k) ++ backStateBytes b.backState ++ flagBytes b.flipped

/-- The runs of a REGION-STATUS entry: the front's, then the back's, or zeros (R102, R169; log 15). -/
def runsBytes (m : Membership) (b : Buffers) : List Byte :=
  runBytes m b.front ++ ((b.back.map (runBytes m)).getD (List.replicate 6 0))

/-- One entry of a REGION-STATUS response (R102); items that the kind does not have are zero bytes (R169). -/
def statusEntryBytes (e : StatusEntry) : List Byte :=
  membershipBytes e.membership ++ kindBytes e.content ++ bufferingBytes e.content ++ ownerBytes e.owner
    ++ gateBytes e.gate ++ wordBytes e.entryEpoch
    ++ ((e.buffers.map (fun b => frontBytes b ++ backBytes b ++ runsBytes e.membership b)).getD (List.replicate 21 0))

/-- The store summary (R102); without a free gap the longest is sent as zero bytes (R168; log 16). -/
def summaryBytes (x : StoreSummary) : List Byte :=
  halfOfNat x.held ++ halfOfNat x.free ++ byteOf x.gaps
    ++ ((x.longest.map (fun g => halfOfNat g.1 ++ halfOfNat g.2)).getD [0, 0, 0, 0])

/-- The STATUS record (R166). -/
def statusBytes (i : StatusInfo) : List Byte :=
  portStateBytes i.state ++ byteOf i.quiet ++ byteOf i.quietFrames ++ runningBytes i.running ++ armedBytes i.armed
    ++ byteOf i.streamCount ++ flagBytes i.hold ++ byteOf i.noticeCount ++ byteOf i.moveCount ++ wordBytes i.frame
    ++ wordBytes i.activeEpoch ++ epochBytes i.pendingEpoch ++ latchBytes i.latch ++ countersBytes i.counters

/-! ## Notices (section 9.6) -/

/-- The CURRENT notice's fields. -/
def currentBytes (i : CurrentInfo) : List Byte :=
  slotBytes i.activeSlot ++ wordBytes i.activeEpoch ++ transitionBytes i.transition ++ slotBytes i.pendingSlot
    ++ epochBytes i.pendingEpoch ++ tagListBytes i.ownedTags ++ wordBytes i.frame ++ rateBytes i.rate
    ++ latchBytes i.latch ++ postureBytes i.posture ++ faceBytes i.face ++ sensorBytes i.sensor
    ++ desiredBytes i.desired ++ flagBytes i.stalled

/-- The ANNOUNCE notice's fields. -/
def announceBytes (i : AnnounceInfo) : List Byte :=
  wordBytes i.epoch ++ byteOf i.slot.val ++ halfBytes i.generation ++ causeBytes i.cause ++ postureBytes i.posture
    ++ faceBytes i.face ++ tagListBytes i.ownedTags ++ wordBytes i.deadline ++ flagBytes i.ackExpected

/-- The kind byte of a touch notice. -/
def touchKindByte : TouchKind → Byte
  | .down => 0x10
  | .move => 0x11
  | .up => 0x12

/-- The kind byte and fields of a notice. -/
def noticeFields : Notice → List Byte
  | .current i => 0x01 :: currentBytes i
  | .announce i => 0x02 :: announceBytes i
  | .active e n g f late =>
    0x03 :: (wordBytes e ++ byteOf n.val ++ halfBytes g ++ wordBytes f ++ linkSetBytes late)
  | .withdrawn e n r =>
    0x04 :: (wordBytes e ++ byteOf n.val ++ [match r with | .superseded => 0 | .aborted => 1])
  | .posture i =>
    0x05 :: (reasonBytes i.reason ++ postureBytes i.posture ++ faceBytes i.face ++ valueBytes i.filtered
      ++ desiredBytes i.desired ++ outcomeBytes i.outcome ++ flagBytes i.stalled)
  | .sensor restored p => 0x06 :: (flagBytes restored ++ postureBytes p)
  | .cutoff on f => 0x07 :: (flagBytes on ++ wordBytes f)
  | .touch k c t u v e =>
    touchKindByte k :: (byteOf c.val ++ byteOf t ++ halfOfNat u ++ halfOfNat v ++ wordBytes e)
  | .cancel c t u v e r =>
    0x13 :: (byteOf c.val ++ byteOf t ++ halfOfNat u ++ halfOfNat v ++ wordBytes e
      ++ [match r with | .switch => 0 | .cutoff => 1])

/-- The 32-byte notice record: bytes beyond the last field are 0x00. -/
def noticeBytes (n : Notice) : List Byte := (noticeFields n ++ List.replicate 32 0).take 32

/-! ## Responses (section 9.3) -/

/-- The status code (section 9.5). -/
def statusByte : Status → Byte
  | .ok => 0x00
  | .busy => 0x01
  | .unknownCommand => 0x02
  | .badParam => 0x03
  | .locked => 0x04
  | .inUse => 0x05
  | .notOpen => 0x06
  | .listFull => 0x07
  | .overlap => 0x08
  | .dupTag => 0x09
  | .storeFull => 0x0A
  | .transitionPending => 0x0B
  | .badEpoch => 0x0C
  | .notOwner => 0x0D
  | .noRegion => 0x0E
  | .superseded => 0x10
  | .aborted => 0x11
  | .cutoffActive => 0x12
  | .noSample => 0x13
  | .epochExhausted => 0x14
  | .done => 0x15
  | .armed => 0x16
  | .idle => 0x17

/-- The result bytes of a response (R169). The entry written that BIND returns (R40) is sent as an entry holds it, a slot
or HOLD, like the six of POSTURE-READ: DESIGN CHOICE, as are the layouts that log 15 lists. -/
def resultsBytes : Results → List Byte
  | .none => []
  | .field n => byteOf n
  | .running r => [r.code, r.tag]
  | .count n => byteOf n
  | .slotNumber n => byteOf n.val
  | .slotUse u => slotUseBytes u
  | .indexPair i j => byteOf i ++ byteOf j
  | .need n => halfOfNat n
  | .committed n g k => byteOf n.val ++ halfBytes g ++ byteOf k
  | .slotRead i => slotReadBytes i
  | .range lo hi out fr => byteOf lo.val ++ byteOf hi.val ++ flagBytes out ++ flagBytes fr
  | .hinge h => hingeBytes h
  | .face f o => faceBytes f ++ outcomeBytes o
  | .binding _ _ x o => bindingBytes x ++ outcomeBytes o
  | .postureRead i => postureReadBytes i
  | .snapshot r =>
    halfOfNat r.period ++ halfOfNat r.high ++ halfOfNat r.angle ++ halfOfNat r.hinge ++ halfOfNat r.filtered
  | .switched e n f => wordBytes e ++ byteOf n.val ++ wordBytes f
  | .epoch e => wordBytes e
  | .acked e t => wordBytes e ++ transitionBytes t
  | .epochs a p => wordBytes a ++ ((p.map wordBytes).getD [])
  | .ackWindow n b => byteOf n ++ byteOf b
  | .cleared es => byteOf es.length ++ es.flatMap clearEntryBytes
  | .regionStatus es x => byteOf es.length ++ es.flatMap statusEntryBytes ++ summaryBytes x
  | .noRegion x => summaryBytes x
  | .rates n m => rateBytes n ++ rateBytes m
  | .frame f => wordBytes f
  | .calibration n b => calibrationBytes n ++ calibrationBytes b
  | .quietFrames n b => byteOf n ++ byteOf b
  | .postureWaited p f v => postureBytes p ++ faceBytes f ++ valueBytes v
  | .status i => statusBytes i
  | .notices ns k => byteOf ns.length ++ byteOf k ++ ns.flatMap noticeBytes

/-- The payload of a RESPONSE (section 9.3): tag, code, status, results. -/
def responsePayload (r : Response) : List Byte := r.tag :: r.code :: statusByte r.status :: resultsBytes r.results

/-- The RESPONSE packet: kind 0x81, flags 0x00 (R168). -/
def responsePacket (r : Response) : List Byte := framePacket 0x81 0x00 (responsePayload r)

end Sys2Proof.Machine
end

