-- ==== Sys2Proof/Machine/LinkCommands.lean ====
section
/-! DEFINITION. The link ports (chapters 7 and 8): lines and marks on arrival (R149, R91), unknown codes, WAIT, ABORT,
SET-QUIET, PORT-RESET, STATUS, FETCH, and a response leaving the port. -/

namespace Sys2Proof.Machine

/-! ## Lines and marks (R88, R91, R149) -/

/-- The streamed arrival checks, and the append (R149). -/
def streamLine (l : Link) (r : RuntimeRecord) (p : Line) (s : State) : State :=
  if r.region.owner ≠ some l then countOn l .misdirected 1 s
  else if ¬ (p.row.toNat < r.region.height ∧ 1 ≤ p.pixels.length
      ∧ p.offset.toNat + p.pixels.length ≤ r.region.width) then countOn l .malformed 1 s
  else if Config.streamDepth ≤ (s.port l).stream.length then countOn l .overrun 1 s
  else s.modPort l (fun q => q.setStream (q.stream ++ [p]))

/-- A LINE after its arrival (R149): STALE, the streamed checks, or the store (R88). -/
def lineEffect (l : Link) (p : Line) (s : State) : State :=
  match resolve s.engine p.epoch p.tag with
  | none => countOn l .stale 1 s
  | some r =>
    if r.region.content = .streamed then streamLine l r p s
    else if r.region.owner ≠ some l then countOn l .misdirected 1 s
    else storeLine l r p s

/-- LINE (R149). -/
def execLine (l : Link) (p : Line) (s : State) : Answer := .next (takePacket l (lineEffect l p) s)

/-- A mark's checks 1 to 3 (R91), and its effect on the record found. -/
def markEffect (l : Link) (region : Byte) (epoch : Word) (effect : RuntimeRecord → State → State) (s : State) : State :=
  match resolve s.engine epoch region with
  | none => countOn l .stale 1 s
  | some r =>
    if r.region.owner ≠ some l then countOn l .misdirected 1 s
    else if !isDouble r then countOn l .malformed 1 s
    else effect r s

/-- BEGIN (R91, R92). -/
def execBeginMark (l : Link) (region : Byte) (epoch : Word) (s : State) : Answer :=
  .next (takePacket l (markEffect l region epoch beginFrame) s)

/-- An END's check 4 and effect (R91, R93). -/
def endChecked (l : Link) (r : RuntimeRecord) (s : State) : State :=
  if backStateOf r ≠ .writing then countOn l .malformed 1 s else endFrame r s

/-- END (R91, R93). -/
def execEndMark (l : Link) (region : Byte) (epoch : Word) (s : State) : Answer :=
  .next (takePacket l (markEffect l region epoch (endChecked l)) s)

/-! ## Commands of the port -/

/-- UNKNOWN_COMMAND (R151, step 1): whatever the slot holds. -/
def execUnknownCommand (l : Link) (tag code : Byte) (s : State) : Answer :=
  .next (takeCommand l (respond l tag code .unknownCommand .none) s)

/-- SET-QUIET once the command slot has let it through (R148). -/
def setQuietEffect (l : Link) (tag n : Byte) (s : State) : State :=
  if 1 ≤ n.toNat then
    answer l tag .setQuiet .ok (.quietFrames n.toNat (s.port l).quietFrames)
      (s.modPort l (fun p => { p with quietFrames := n.toNat }))
  else answer l tag .setQuiet .badParam .none s

/-- SET-QUIET (R148). -/
def execSetQuiet (l : Link) (tag n : Byte) (s : State) : Answer :=
  .next (slotCommand l tag .setQuiet (setQuietEffect l tag n) s)

/-- The running WAIT that WAIT's parameters name, if they are in range (R153): 0 FRAME, 1 POSTURE, 2 EPOCH. -/
def waitOf (tag event n : Byte) : Option Running :=
  if event = 0 then (if 1 ≤ n.toNat then some (.waitFrame tag n.toNat) else none)
  else if event = 1 then some (.waitPosture tag)
  else if event = 2 then some (.waitEpoch tag)
  else none

/-- WAIT once the command slot has let it through (R153). -/
def waitEffect (l : Link) (tag event n : Byte) (s : State) : State :=
  match waitOf tag event n with
  | none => answer l tag .wait .badParam .none s
  | some r => s.modPort l (fun p => { p with slot := some r })

/-- WAIT (R153). -/
def execWait (l : Link) (tag event n : Byte) (s : State) : Answer :=
  .next (slotCommand l tag .wait (waitEffect l tag event n) s)

/-- ABORT (R154). -/
def abortEffect (l : Link) (tag condition quiet : Byte) (s : State) : State :=
  match abortWhenOfByte condition with
  | none => answer l tag .abort .badParam .none s
  | some w =>
    match (s.port l).slot with
    | none => answer l tag .abort .idle .none s
    | some _ =>
      match w with
      | .now => answer l tag .abort .done .none (abortRunning l (decide (quiet ≠ 0)) s)
      | .armed c => answer l tag .abort .armed .none
          (s.modPort l (fun p => { p with armed := some { condition := c, quiet := decide (quiet ≠ 0) } }))

/-- ABORT (R154), immediate. -/
def execAbort (l : Link) (tag condition quiet : Byte) (s : State) : Answer :=
  .next (takeCommand l (abortEffect l tag condition quiet) s)

/-! ## PORT-RESET (R156) -/

/-- A port after PORT-RESET: its running command gone, its queues empty, its counters 0 (R156). -/
def resetPort (p : Port) : Port :=
  { p with
    state := .online, quiet := 0, slot := none, armed := none, stream := [], hold := false,
    counters := Counters.zero, notices := [] }

/-- A pending transition after a PORT-RESET on a link: its requesting link is absent if it was that one (R64), and an
acknowledgement of that link is withdrawn, which returns ARMED to ANNOUNCED (R57). -/
def withdrawAck (l : Link) (p : Pending) : Pending :=
  let q := { p with requester := if p.requester = some l then none else p.requester }
  if p.acked.get l then { q with acked := p.acked.set l false, armed := p.armed && !nonempty p.ackSet } else q

/-- A record after a PORT-RESET on a link: the gates of the link's STREAMED regions in the active layout close (R75). -/
def closeStreamed (l : Link) (r : RuntimeRecord) : RuntimeRecord :=
  if r.region.content = .streamed ∧ r.region.owner = some l ∧ r.membership ≠ .pending then { r with gate := .closed }
  else r

/-- The engine after a PORT-RESET on a link (R57, R64, R75). -/
def portResetEngine (l : Link) (e : Engine) : Engine :=
  { e with pending := e.pending.map (withdrawAck l), records := e.records.map (closeStreamed l) }

/-- A contact after a PORT-RESET on a link: BOUND to the link goes to DISCARD (R141). -/
def discardOf (l : Link) (x : Contact) : Contact :=
  match x with
  | .bound _ owner _ _ => if owner = l then .discard else x
  | _ => x

/-- The contact table after a PORT-RESET on a link (R141). -/
def discardContacts (l : Link) (v : Vector Contact 10) : Vector Contact 10 :=
  touchIds.foldl (fun v c => v.set c.val (discardOf l (v.get c)) c.isLt) v

/-- The effects of a PORT-RESET, less its response and a CURRENT notice (R156). -/
def portResetEffects (l : Link) (s : State) : State :=
  { s with
    ports := s.ports.set l (resetPort (s.port l))
    slots := { s.slots with staging := s.slots.staging.set l none }
    engine := portResetEngine l s.engine
    touch := { s.touch with contacts := discardContacts l s.touch.contacts } }

/-- A PORT-RESET taken by the port (R156): its effects, the CURRENT notice when the port was OFFLINE (R147), and its
response. -/
def portResetEffect (l : Link) (tag : Byte) (s : State) : State :=
  let s1 := portResetEffects l s
  let s2 := if (s.port l).state = .offline then notify l (currentNotice l s1) s1 else s1
  answer l tag .portReset .ok .none s2

/-- PORT-RESET (R156), immediate. It empties the notice queue before a CURRENT notice is queued, so the arrival is part
of its effects; only one that finds no room for its response arrives without them (R151). -/
def execPortReset (l : Link) (tag : Byte) (s : State) : Answer :=
  .next (unlessHeld (fun s =>
    if noRoom l s then countOn l .overrun 1 (arrive l s) else portResetEffect l tag s) s)

/-! ## STATUS and FETCH -/

/-- The STATUS record of a link (R166). -/
def statusInfo (l : Link) (s : State) : StatusInfo :=
  let p := s.port l
  { state := p.state, quiet := p.quiet, quietFrames := p.quietFrames, running := p.slot, armed := p.armed,
    streamCount := p.stream.length, hold := p.hold, noticeCount := p.notices.length,
    moveCount := moveCount p.notices, frame := s.scan.frame, activeEpoch := s.engine.activeEpoch,
    pendingEpoch := pendingEpoch s.engine, latch := s.scan.latch, counters := p.counters }

/-- STATUS once it is taken: the record, and the counters cleared (R166). -/
def statusEffect (l : Link) (tag : Byte) (s : State) : State :=
  answer l tag .status .ok (.status (statusInfo l s)) (s.modPort l (fun p => { p with counters := Counters.zero }))

/-- STATUS (R166), immediate. -/
def execStatus (l : Link) (tag : Byte) (s : State) : Answer := .next (takeCommand l (statusEffect l tag) s)

/-- FETCH once it is taken: up to 8 of the oldest notices leave the queue (R163). -/
def fetchEffect (l : Link) (tag : Byte) (s : State) : State :=
  let q := (s.port l).notices
  answer l tag .fetch .ok (.notices (q.take Config.fetchMost) (q.drop Config.fetchMost).length)
    (s.modPort l (fun p => { p with notices := q.drop Config.fetchMost }))

/-- FETCH (R163), immediate. -/
def execFetch (l : Link) (tag : Byte) (s : State) : Answer := .next (takeCommand l (fetchEffect l tag) s)

/-! ## A response leaves the port (R152) -/

/-- The oldest produced response has been sent. -/
def sendResponse (l : Link) (s : State) : State :=
  match (s.port l).responses with
  | [] => s
  | r :: rs =>
    let s1 := s.modPort l (fun p => { p with responses := rs })
    { s1 with outputs := { s1.outputs with sent := s1.outputs.sent.set l (responsePacket r) } }

/-- RESPONSE_SENT (R152); no effect when none is produced. -/
def execResponseSent (l : Link) (s : State) : Answer := .next (unlessHeld (sendResponse l) s)

end Sys2Proof.Machine
end

