-- ==== Sys2Proof/Machine/PostureEvents.lean ====
section
/-! DEFINITION. The posture monitor (chapter 2): the hinge edges, a sample through the block (R26 to R35), the sensor
timeout, follow evaluation (R42), and the posture commands. -/

namespace Sys2Proof.Machine

/-- Change the posture monitor. -/
def modPosture (f : PostureMonitor → PostureMonitor) (s : State) : State := { s with posture := f s.posture }

/-! ## A sample (R26 to R28) -/

/-- The period count stops at 65535 ticks (R26). -/
def stopCount (ticks : Nat) : Nat := min ticks 65535

/-- The acceptance check (R27). -/
def acceptable (period high : Nat) : Bool := decide (400 ≤ period ∧ period ≤ 4000 ∧ 1 ≤ high ∧ high ≤ period - 1)

/-- The raw angle A (R28). -/
def rawAngle (period high : Nat) : Nat := (3600 * high + period / 2) / period

/-- The hinge value H from the raw angle and ZERO (R28). -/
def hingeValue (angle closed : Nat) : Nat :=
  let d := (angle + 3600 - closed) % 3600
  if d ≤ 1800 then d else if d ≤ 2000 then 1800 else 0

/-- The filter window with a new value (R29): an empty one is filled with it. -/
def windowAfter (h : Nat) : Option Window → Window
  | none => ⟨h, h, h, h⟩
  | some w => ⟨w.h2, w.h3, w.h4, h⟩

/-- The filtered value F (R29). -/
def filteredValue (w : Window) : Nat := (w.h1 + w.h2 + w.h3 + w.h4 + 2) / 4

/-! ## Candidate and dwell (R30, R31) -/

/-- The candidate posture (R30). -/
def candidate (p : Posture) (h : HingeSettings) (f : Nat) : Posture :=
  match p with
  | .unknown | .part => if f ≤ h.foldEnter then .folded else if h.flatEnter ≤ f then .flat else .part
  | .folded => if f < h.foldExit ∧ f < h.flatEnter then .folded else if h.flatEnter ≤ f then .flat else .part
  | .flat => if f ≤ h.foldEnter then .folded else if h.flatExit < f ∧ h.foldEnter < f then .flat else .part

/-- The dwell counter after a candidate, before it is held against DWELL (R31). -/
def dwellAfter (m : PostureMonitor) (c : Posture) : Nat :=
  if c = m.posture then 0 else if m.counting = some c then m.dwellCount + 1 else 1

/-- Whether a candidate brings a posture change (R31). -/
def changesPosture (m : PostureMonitor) (c : Posture) : Bool :=
  decide (c ≠ m.posture ∧ m.settings.dwell ≤ dwellAfter m c)

/-- The monitor after the dwell step (R31). -/
def dwellStep (m : PostureMonitor) (c : Posture) : PostureMonitor :=
  if changesPosture m c then { m with posture := c, dwellCount := 0, counting := none }
  else { m with dwellCount := dwellAfter m c, counting := if c = m.posture then none else some c }

/-! ## Follow evaluation (R42 to R44) -/

/-- Follow evaluation with a cause (R42); an outcome of STORE_FULL sets the stalled flag (R43). -/
def followEvaluation (cause : Cause) (s : State) : State × FollowOutcome :=
  match desiredSlot s.posture with
  | .none => (s, .none)
  | .hold => (s, .hold)
  | .slot n =>
    if currentTarget s.engine = some n then (s, .none)
    else
      let r := followRequest n cause s
      if r.2 = .storeFull then (modPosture (fun m => { m with stalled := true }) r.1, r.2) else r

/-- The POSTURE notice (R44). -/
def postureNotice (reason : PostureReason) (outcome : FollowOutcome) (s : State) : Notice :=
  .posture
    { reason := reason, posture := s.posture.posture, face := s.posture.face,
      filtered := s.posture.last.map (·.filtered), desired := desiredSlot s.posture, outcome := outcome,
      stalled := s.posture.stalled }

/-- Follow evaluation and its POSTURE notice, with the outcome (R39, R40, R44). -/
def evaluateAndTell (cause : Cause) (reason : PostureReason) (s : State) : State × FollowOutcome :=
  let r := followEvaluation cause s
  (notifyBoth (postureNotice reason r.2 r.1) r.1, r.2)

/-- The running WAIT for POSTURE of a link completes (R153). -/
def postureWaitDone (l : Link) (s : State) : State :=
  match (s.port l).slot with
  | some (.waitPosture _) =>
    finish l .ok (.postureWaited s.posture.posture s.posture.face (s.posture.last.map (·.filtered))) s
  | _ => s

/-- A link port is told of a posture change (R32, R155): the WAIT completes and an AT_POSTURE abort acts, in the order
`abortFirst` gives. -/
def tellPosture (l : Link) (abortFirst : Bool) (s : State) : State :=
  if abortFirst then postureWaitDone l (abortArmed .atPosture l s)
  else abortArmed .atPosture l (postureWaitDone l s)

/-- A posture change (R32). -/
def postureChange (abortsFirst : LinkSet) (s : State) : State :=
  tellPosture .b abortsFirst.b (tellPosture .a abortsFirst.a (evaluateAndTell .posture .posture s).1)

/-! ## An accepted sample, stage by stage (R27 to R35) -/

/-- The sensor state is brought up to date (R34): LOST is told restored. -/
def sensorSeen (s : State) : State :=
  let s1 := modPosture (fun m => { m with sensor := .ok }) s
  if s.posture.sensor = .lost then notifyBoth (.sensor true s.posture.posture) s1 else s1

/-- Window, last values and snapshot latch (R29, R35). -/
def recordSample (period high : Nat) (m : PostureMonitor) : PostureMonitor :=
  let a := rawAngle period high
  let h := hingeValue a m.settings.zero
  let w := windowAfter h m.window
  let f := filteredValue w
  { m with
    window := some w
    last := some { hinge := h, filtered := f }
    snapshot := match m.snapshot with
      | some r => some r
      | none => some { period := period, high := high, angle := a, hinge := h, filtered := f } }

/-- The candidate of the last F. -/
def candidateNow (m : PostureMonitor) : Posture :=
  candidate m.posture m.settings ((m.last.map (·.filtered)).getD 0)

/-- The sensor timeout restarts with the SENSOR_TIMEOUT in force (R33). -/
def restartTimeout (m : PostureMonitor) : PostureMonitor := { m with running := some m.settings.timeout }

/-- An accepted sample (R27). -/
def acceptSample (period high : Nat) (abortsFirst : LinkSet) (s : State) : State :=
  let s1 := modPosture (recordSample period high) (sensorSeen s)
  let c := candidateNow s1.posture
  let s2 := modPosture (fun m => dwellStep m c) s1
  let s3 := if changesPosture s1.posture c then postureChange abortsFirst s2 else s2
  modPosture restartTimeout s3

/-- A sample (R27): accepted, or rejected and counted. -/
def takeSample (period high : Nat) (abortsFirst : LinkSet) (s : State) : State :=
  if acceptable period high then acceptSample period high abortsFirst s
  else modPosture (fun m => { m with rejects := m.rejects + 1 }) s

/-! ## The HINGE edges and the timeout -/

/-- A falling edge ends the high time of the period being measured (R26). -/
def fallingEdge (ticks : Nat) (m : PostureMonitor) : PostureMonitor :=
  match m.measurement with
  | some ⟨none⟩ => { m with measurement := some ⟨some (stopCount ticks)⟩ }
  | _ => m

/-- HINGE_FALL (R26). -/
def execHingeFall (ticks : Nat) (s : State) : Answer := .next (unlessHeld (modPosture (fallingEdge ticks)) s)

/-- A rising edge starts the next period and, when it follows an earlier one, forms a sample (R26). -/
def risingEdge (ticks : Nat) (abortsFirst : LinkSet) (s : State) : State :=
  let s1 := modPosture (fun m => { m with measurement := some ⟨none⟩ }) s
  match s.posture.measurement with
  | none => s1
  | some w => takeSample (stopCount ticks) (w.high.getD (stopCount ticks)) abortsFirst s1

/-- HINGE_RISE (R26). -/
def execHingeRise (ticks : Nat) (abortsFirst : LinkSet) (s : State) : Answer :=
  .next (unlessHeld (risingEdge ticks abortsFirst) s)

/-- The monitor after a sensor loss (R33). -/
def loseSensor (m : PostureMonitor) : PostureMonitor :=
  { m with sensor := .lost, running := none, dwellCount := 0, counting := none, window := none }

/-- The expiry of the sensor timeout; it runs only while the sensor is OK (R33). -/
def timeoutEffect (s : State) : State :=
  if s.posture.sensor = .ok then notifyBoth (.sensor false s.posture.posture) (modPosture loseSensor s) else s

/-- SENSOR_TIMEOUT (R33). -/
def execSensorTimeout (s : State) : Answer := .next (unlessHeld timeoutEffect s)

/-! ## Posture commands -/

/-- New settings (R38): the dwell is cleared, and the window emptied when ZERO changes. -/
def newSettings (h : HingeSettings) (m : PostureMonitor) : PostureMonitor :=
  { m with
    settings := h
    dwellCount := 0
    counting := none
    window := if h.zero = m.settings.zero then m.window else none }

/-- SET-HINGE once the command slot has let it through (R37, R38). -/
def setHingeEffect (l : Link) (tag : Byte) (fields : HingeFields) (s : State) : State :=
  match hingeFault (hingeOf fields) with
  | some n => answer l tag .setHinge .badParam (.field n) s
  | none => answer l tag .setHinge .ok (.hinge (hingeOf fields)) (modPosture (newSettings (hingeOf fields)) s)

/-- SET-HINGE (R37). -/
def execSetHinge (l : Link) (tag : Byte) (fields : HingeFields) (s : State) : Answer :=
  .next (slotCommand l tag .setHinge (setHingeEffect l tag fields) s)

/-- SET-FACE once the command slot has let it through (R39). -/
def setFaceEffect (l : Link) (tag face : Byte) (s : State) : State :=
  match faceOfByte face with
  | none => answer l tag .setFace .badParam .none s
  | some f =>
    let r := evaluateAndTell .face .face (modPosture (fun m => { m with face := f }) s)
    answer l tag .setFace .ok (.face f r.2) r.1

/-- SET-FACE (R39). -/
def execSetFace (l : Link) (tag face : Byte) (s : State) : Answer :=
  .next (slotCommand l tag .setFace (setFaceEffect l tag face) s)

/-- The binding table with one entry written; UNKNOWN has no entry (R40). -/
def setBinding (p : Posture) (f : Face) (x : Binding) (b : Bindings) : Bindings :=
  match p, f with
  | .unknown, _ => b
  | .folded, .front => { b with foldedFront := x }
  | .folded, .rear => { b with foldedRear := x }
  | .part, .front => { b with partFront := x }
  | .part, .rear => { b with partRear := x }
  | .flat, .front => { b with flatFront := x }
  | .flat, .rear => { b with flatRear := x }

/-- BIND once the command slot has let it through (R40). Of several bad fields the one with the lowest number is returned:
DESIGN CHOICE, since R40 gives its checks no order (log 28). -/
def bindEffect (l : Link) (tag posture face slot : Byte) (s : State) : State :=
  match boundPostureOfByte posture with
  | none => answer l tag .bind .badParam (.field 1) s
  | some p =>
    match faceOfByte face with
    | none => answer l tag .bind .badParam (.field 2) s
    | some f =>
      match bindingOfByte slot with
      | none => answer l tag .bind .badParam (.field 3) s
      | some x =>
        let r := evaluateAndTell .bind .bind
          (modPosture (fun m => { m with bindings := setBinding p f x m.bindings }) s)
        answer l tag .bind .ok (.binding p f x r.2) r.1

/-- BIND (R40). -/
def execBind (l : Link) (tag posture face slot : Byte) (s : State) : Answer :=
  .next (slotCommand l tag .bind (bindEffect l tag posture face slot) s)

/-- What POSTURE-READ returns (R45). -/
def postureReadInfo (s : State) : PostureReadInfo :=
  { posture := s.posture.posture, face := s.posture.face, last := s.posture.last,
    dwellCount := s.posture.dwellCount, counting := s.posture.counting, sensor := s.posture.sensor,
    desired := desiredSlot s.posture, stalled := s.posture.stalled, bindings := s.posture.bindings,
    settings := s.posture.settings, rejects := s.posture.rejects, touchMalformed := s.touch.malformed }

/-- POSTURE-READ (R45). -/
def execPostureRead (l : Link) (tag : Byte) (s : State) : Answer :=
  .next (slotCommand l tag .postureRead
    (fun s => answer l tag .postureRead .ok (.postureRead (postureReadInfo s)) s) s)

/-- HINGE-SNAPSHOT once the command slot has let it through (R36). -/
def hingeSnapshotEffect (l : Link) (tag : Byte) (s : State) : State :=
  match s.posture.snapshot with
  | none => answer l tag .hingeSnapshot .noSample .none s
  | some r => answer l tag .hingeSnapshot .ok (.snapshot r) (modPosture (fun m => { m with snapshot := none }) s)

/-- HINGE-SNAPSHOT (R36). -/
def execHingeSnapshot (l : Link) (tag : Byte) (s : State) : Answer :=
  .next (slotCommand l tag .hingeSnapshot (hingeSnapshotEffect l tag) s)

end Sys2Proof.Machine
end

