-- ==== Sys2Proof/Machine/RegionCommands.lean ====
section
/-! DEFINITION. The region store's commands (chapter 4): REGION-CLEAR (R98) and REGION-STATUS (R102). -/

namespace Sys2Proof.Machine

/-- The records that a tag names, one or two (R69). Of two the active one comes first, and so do their entries in a
response: DESIGN CHOICE, the spec gives no order (log 15). -/
def recordsNamed (t : Nat) (e : Engine) : List RuntimeRecord := e.records.filter (fun r => r.region.tag = t)

/-- Whether a REGION-CLEAR from a link acts on a record (R98). -/
def clearsRecord (l : Link) (t : Nat) (w : Which) (r : RuntimeRecord) : Bool :=
  decide (r.region.tag = t ∧ r.region.owner = some l) && holdsNamed w r

/-- REGION-CLEAR of the records it acts on (R98, R100). -/
def clearRegions (l : Link) (t : Nat) (w : Which) (s : State) : State :=
  { s with engine :=
      { s.engine with
        records := s.engine.records.map (fun r => if clearsRecord l t w r then clearRecord w r else r) } }

/-- REGION-CLEAR once the command slot has let it through (R98). -/
def regionClearEffect (l : Link) (tag region which : Byte) (s : State) : State :=
  match tagOfByte region, whichOfByte which with
  | some t, some w =>
    let named := recordsNamed t s.engine
    if named.isEmpty then answer l tag .regionClear .noRegion .none s
    else if named.all (fun r => r.region.owner ≠ some l) then answer l tag .regionClear .notOwner .none s
    else
      let acted := named.filter (clearsRecord l t w)
      if acted.isEmpty then answer l tag .regionClear .badParam .none s
      else answer l tag .regionClear .ok (.cleared (acted.map (clearEntry w))) (clearRegions l t w s)
  | _, _ => answer l tag .regionClear .badParam .none s

/-- REGION-CLEAR (R98). -/
def execRegionClear (l : Link) (tag region which : Byte) (s : State) : Answer :=
  .next (slotCommand l tag .regionClear (regionClearEffect l tag region which) s)

/-- One entry of a REGION-STATUS response (R102). -/
def statusEntry (r : RuntimeRecord) : StatusEntry :=
  { membership := r.membership, content := r.region.content, owner := r.region.owner, gate := r.gate,
    entryEpoch := r.entryEpoch, buffers := r.buffers }

/-- REGION-STATUS once the command slot has let it through (R102). -/
def regionStatusEffect (l : Link) (tag region : Byte) (s : State) : State :=
  match tagOfByte region with
  | none => answer l tag .regionStatus .badParam .none s
  | some t =>
    let named := recordsNamed t s.engine
    let summary := storeSummary s.engine.records
    if named.isEmpty then answer l tag .regionStatus .noRegion (.noRegion summary) s
    else answer l tag .regionStatus .ok (.regionStatus (named.map statusEntry) summary) s

/-- REGION-STATUS (R102). -/
def execRegionStatus (l : Link) (tag region : Byte) (s : State) : Answer :=
  .next (slotCommand l tag .regionStatus (regionStatusEffect l tag region) s)

end Sys2Proof.Machine
end

