-- ==== Sys2Proof/Machine/SlotCommands.lean ====
section
/-! DEFINITION. The slot table's commands (chapter 1): staging and commit (R9 to R17), SLOT-READ (R18), slot protection
(R19 to R23). -/

namespace Sys2Proof.Machine

/-! ## Staging areas and slots -/

/-- The staging area of a link. -/
def stagingOf (l : Link) (s : State) : Option Staging := s.slots.staging.get l

/-- Set the staging area of a link. -/
def setStaging (l : Link) (x : Option Staging) (s : State) : State :=
  { s with slots := { s.slots with staging := s.slots.staging.set l x } }

/-- The layout a slot holds. -/
def layoutOf (n : SlotNo) (s : State) : Layout := s.slots.slots.get n

/-- Write a slot (R15). -/
def setLayout (n : SlotNo) (x : Layout) (s : State) : State :=
  { s with slots := { s.slots with slots := s.slots.slots.set n.val x n.isLt } }

/-! ## The checks of STAGE-COMMIT (R12 to R15) -/

/-- Two regions share a pixel (R13). -/
def overlaps (x y : Region) : Bool :=
  decide (x.col0 < y.col0 + y.width ∧ y.col0 < x.col0 + x.width ∧ x.row0 < y.row0 + y.height
    ∧ y.row0 < x.row0 + x.height)

/-- Two regions have the same tag (R14). -/
def sameTag (x y : Region) : Bool := x.tag == y.tag

/-- The staging index of the first record after index `i` that clashes with `x`. -/
def firstClash (clash : Region → Region → Bool) (x : Region) (i : Nat) : List Region → Option Nat
  | [] => none
  | y :: ys => if clash x y then some (i + 1) else firstClash clash x (i + 1) ys

/-- The first clashing pair in the order (0, 1), (0, 2), ..., (1, 2), ... (R13, R14). -/
def firstPair (clash : Region → Region → Bool) (i : Nat) : List Region → Option (Nat × Nat)
  | [] => none
  | x :: xs =>
    match firstClash clash x i xs with
    | some j => some (i, j)
    | none => firstPair clash (i + 1) xs

/-- Whether a region sorts before another, by row0 and then col0 (R5). -/
def sortsBefore (x y : Region) : Bool := decide (x.row0 < y.row0 ∨ (x.row0 = y.row0 ∧ x.col0 ≤ y.col0))

/-- Put a region into a list sorted by R5. -/
def insertRegion (x : Region) : List Region → List Region
  | [] => [x]
  | y :: ys => if sortsBefore x y then x :: y :: ys else y :: insertRegion x ys

/-- The records in the order of R5. -/
def sortRegions (rs : List Region) : List Region := rs.foldr insertRegion []

/-- The layout a commit writes into a slot (R6, R15). -/
def committedLayout (st : Staging) (old : Layout) : Layout :=
  { generation := old.generation + 1, backdrop := st.backdrop, regions := sortRegions st.records }

/-! ## STAGE-OPEN, STAGE-REGION, STAGE-COMMIT, STAGE-DROP -/

/-- STAGE-OPEN once the command slot has let it through (R10). -/
def stageOpenEffect (l : Link) (tag slot : Byte) (backdrop : Colour) (s : State) : State :=
  match slotOfByte slot with
  | none => answer l tag .stageOpen .badParam .none s
  | some n =>
    if slotLocked s.slots n then answer l tag .stageOpen .locked .none s
    else if slotUse s.engine n ≠ .none then answer l tag .stageOpen .inUse .none s
    else answer l tag .stageOpen .ok .none
      (setStaging l (some { slot := n, backdrop := backdrop, records := [] }) s)

/-- STAGE-OPEN (R10). -/
def execStageOpen (l : Link) (tag slot : Byte) (backdrop : Colour) (s : State) : Answer :=
  .next (slotCommand l tag .stageOpen (stageOpenEffect l tag slot backdrop) s)

/-- STAGE-REGION once the command slot has let it through (R11). -/
def stageRegionEffect (l : Link) (tag : Byte) (record : RegionRecord) (s : State) : State :=
  match stagingOf l s with
  | none => answer l tag .stageRegion .notOpen .none s
  | some st =>
    match checkRegion record with
    | .error n => answer l tag .stageRegion .badParam (.field n) s
    | .ok r =>
      if Config.maxRegions ≤ st.records.length then answer l tag .stageRegion .listFull .none s
      else answer l tag .stageRegion .ok (.count (st.records.length + 1))
        (setStaging l (some { st with records := st.records ++ [r] }) s)

/-- STAGE-REGION (R11). -/
def execStageRegion (l : Link) (tag : Byte) (record : RegionRecord) (s : State) : Answer :=
  .next (slotCommand l tag .stageRegion (stageRegionEffect l tag record) s)

/-- STAGE-COMMIT once the command slot has let it through (R12). -/
def stageCommitEffect (l : Link) (tag : Byte) (s : State) : State :=
  match stagingOf l s with
  | none => answer l tag .stageCommit .notOpen .none s
  | some st =>
    if slotLocked s.slots st.slot then answer l tag .stageCommit .locked (.slotNumber st.slot) s
    else if slotUse s.engine st.slot ≠ .none then
      answer l tag .stageCommit .inUse (.slotUse (slotUse s.engine st.slot)) s
    else
      match firstPair overlaps 0 st.records with
      | some (i, j) => answer l tag .stageCommit .overlap (.indexPair i j) s
      | none =>
        match firstPair sameTag 0 st.records with
        | some (i, j) => answer l tag .stageCommit .dupTag (.indexPair i j) s
        | none =>
          if Config.storeBlocks < layoutNeed st.records then
            answer l tag .stageCommit .storeFull (.need (layoutNeed st.records)) s
          else
            let layout := committedLayout st (layoutOf st.slot s)
            answer l tag .stageCommit .ok (.committed st.slot layout.generation layout.regions.length)
              (setStaging l none (setLayout st.slot layout s))

/-- STAGE-COMMIT (R12). -/
def execStageCommit (l : Link) (tag : Byte) (s : State) : Answer :=
  .next (slotCommand l tag .stageCommit (stageCommitEffect l tag) s)

/-- STAGE-DROP once the command slot has let it through (R17). -/
def stageDropEffect (l : Link) (tag : Byte) (s : State) : State :=
  match stagingOf l s with
  | none => answer l tag .stageDrop .notOpen .none s
  | some _ => answer l tag .stageDrop .ok .none (setStaging l none s)

/-- STAGE-DROP (R17). -/
def execStageDrop (l : Link) (tag : Byte) (s : State) : Answer :=
  .next (slotCommand l tag .stageDrop (stageDropEffect l tag) s)

/-! ## SLOT-READ -/

/-- What SLOT-READ returns of a slot (R18). -/
def slotReadInfo (n : SlotNo) (index : Nat) (s : State) : SlotReadInfo :=
  let layout := layoutOf n s
  { backdrop := layout.backdrop, generation := layout.generation, regionCount := layout.regions.length,
    record := layout.regions[index]?, use := slotUse s.engine n, locked := slotLocked s.slots n,
    low := s.slots.low, high := s.slots.high, outside := s.slots.outside, freeze := s.slots.freeze }

/-- SLOT-READ once the command slot has let it through (R18). -/
def slotReadEffect (l : Link) (tag slot index : Byte) (s : State) : State :=
  match slotOfByte slot, slotOfByte index with
  | some n, some i => answer l tag .slotRead .ok (.slotRead (slotReadInfo n i.val s)) s
  | _, _ => answer l tag .slotRead .badParam .none s

/-- SLOT-READ (R18). -/
def execSlotRead (l : Link) (tag slot index : Byte) (s : State) : Answer :=
  .next (slotCommand l tag .slotRead (slotReadEffect l tag slot index) s)

/-! ## Slot protection -/

/-- The range and freeze state that a range command reports (R20 to R22). -/
def rangeResults (t : SlotTable) : Results := .range t.low t.high t.outside t.freeze

/-- Set the open range. -/
def setRange (low high : SlotNo) (outside : Bool) (s : State) : State :=
  { s with slots := { s.slots with low := low, high := high, outside := outside } }

/-- Set the freeze state. -/
def setFreeze (f : Bool) (s : State) : State := { s with slots := { s.slots with freeze := f } }

/-- Answer a range command with the range and freeze state it leaves. -/
def answerRange (l : Link) (tag : Byte) (c : Command) (s : State) : State :=
  answer l tag c .ok (rangeResults s.slots) s

/-- SLOTS-OPEN once the command slot has let it through (R20). -/
def slotsOpenEffect (l : Link) (tag low high outside : Byte) (s : State) : State :=
  if s.slots.freeze then answer l tag .slotsOpen .locked .none s
  else
    match slotOfByte low, slotOfByte high, flagOfByte outside with
    | some lo, some hi, some out =>
      if lo ≤ hi then answerRange l tag .slotsOpen (setRange lo hi out s)
      else answer l tag .slotsOpen .badParam .none s
    | _, _, _ => answer l tag .slotsOpen .badParam .none s

/-- SLOTS-OPEN (R20). -/
def execSlotsOpen (l : Link) (tag low high outside : Byte) (s : State) : Answer :=
  .next (slotCommand l tag .slotsOpen (slotsOpenEffect l tag low high outside) s)

/-- SLOTS-CLOSE once the command slot has let it through (R21). -/
def slotsCloseEffect (l : Link) (tag : Byte) (s : State) : State :=
  if s.slots.freeze then answer l tag .slotsClose .locked .none s
  else answerRange l tag .slotsClose (setRange 0 7 true s)

/-- SLOTS-CLOSE (R21). -/
def execSlotsClose (l : Link) (tag : Byte) (s : State) : Answer :=
  .next (slotCommand l tag .slotsClose (slotsCloseEffect l tag) s)

/-- SLOTS-FREEZE once the command slot has let it through (R22). -/
def slotsFreezeEffect (l : Link) (tag : Byte) (s : State) : State :=
  if s.slots.freeze then answer l tag .slotsFreeze .locked .none s
  else answerRange l tag .slotsFreeze (setFreeze true s)

/-- SLOTS-FREEZE (R22). -/
def execSlotsFreeze (l : Link) (tag : Byte) (s : State) : Answer :=
  .next (slotCommand l tag .slotsFreeze (slotsFreezeEffect l tag) s)

/-- PROTECT_PULSE (R23): while freeze is set it clears freeze and locks every slot; taken in reset too. -/
def execProtectPulse (s : State) : Answer :=
  .next (if s.slots.freeze then setFreeze false (setRange 0 7 true s) else s)

end Sys2Proof.Machine
end

