-- ==== Sys2Proof/Machine/TouchEvents.lean ====
section
/-! DEFINITION. The touch router (chapter 6): the controller port (R126), reports (R127, R128), the mapping (R129,
R132), the contact table (R134 to R137) and SET-TOUCH-CAL (R130). -/

namespace Sys2Proof.Machine

/-- Set the state of the touch controller port: READING or IDLE. -/
def setReading (b : Bool) (s : State) : State := { s with touch := { s.touch with reading := b } }

/-- A malformed report adds 1 to TOUCH_MALFORMED (R127). -/
def countMalformedReport (s : State) : State :=
  { s with touch := { s.touch with malformed := s.touch.malformed + 1 } }

/-! ## The mapping (R129, R132) -/

/-- clamp(x, lo, hi) of R129. -/
def clampTo (x lo hi : Int) : Int := if x < lo then lo else if hi < x then hi else x

/-- One panel coordinate in sixteenths of a pixel (R129). -/
def panelCoordinate (raw gain : Nat) (offset limit : Int) : Int :=
  clampTo (((raw * gain + 2048) / 4096 : Nat) + offset) 0 limit

/-- A panel touch position (R129): X16 and Y16. -/
structure TouchPoint where
  x16 : Int
  y16 : Int
deriving DecidableEq, Repr

/-- The panel position of a raw one (R129). -/
def mapPoint (c : Calibration) (tx ty : Nat) : TouchPoint :=
  { x16 := panelCoordinate tx c.gx c.ox Config.maxX16, y16 := panelCoordinate ty c.gy c.oy Config.maxY16 }

/-- The panel pixel under a position: column and row (R129). -/
def pixelUnder (p : TouchPoint) : Nat × Nat := ((p.x16 / 16).toNat, (p.y16 / 16).toNat)

/-- Whether a region contains a pixel (R131). -/
def containsPixel (g : Region) (c r : Nat) : Bool :=
  decide (g.col0 ≤ c ∧ c < g.col0 + g.width ∧ g.row0 ≤ r ∧ r < g.row0 + g.height)

/-- The active record under a pixel, or none (R131). -/
def recordUnder (e : Engine) (c r : Nat) : Option RuntimeRecord :=
  (activeRecords e).find? (fun q => containsPixel q.region c r)

/-- One local coordinate: the offset from the region's corner, clamped to the region, and turned in a TURNED region
(R132). -/
def localCoordinate (o : Orientation) (at16 : Int) (corner size : Nat) : Nat :=
  let u := clampTo (at16 - 16 * corner) 0 (16 * size - 1)
  match o with
  | .upright => u.toNat
  | .turned => (16 * (size : Int) - 1 - u).toNat

/-- The local position in a region (R132). The clamp leaves a position inside the region as it is. -/
def localPoint (g : Region) (p : TouchPoint) : Nat × Nat :=
  (localCoordinate g.orientation p.x16 g.col0 g.width, localCoordinate g.orientation p.y16 g.row0 g.height)

/-! ## The contact table (R134 to R137) -/

/-- The owner a contact on a record would have: none when a test of R134 fails. -/
def bindOwner (latch : Latch) (r : RuntimeRecord) : Option Link :=
  if r.region.touch = .route ∧ r.gate = .opened ∧ latch = .clear then r.region.owner else none

/-- A DOWN or MOVE for a FREE id (R134). -/
def startContact (c : TouchId) (p : TouchPoint) (s : State) : State :=
  match recordUnder s.engine (pixelUnder p).1 (pixelUnder p).2 with
  | none => setContact c .discard s
  | some r =>
    match bindOwner s.scan.latch r with
    | none => setContact c .discard s
    | some l =>
      let at_ := localPoint r.region p
      notify l (.touch .down c r.region.tag at_.1 at_.2 s.engine.activeEpoch)
        (setContact c (.bound r.region.tag l at_.1 at_.2) s)

/-- The local position of a BOUND contact's entry through the bound region's present geometry (R135); the last position
when the tag names no active region, which R133 rules out. -/
def boundPoint (e : Engine) (tag u v : Nat) (p : TouchPoint) : Nat × Nat :=
  match recordWithTag tag (activeRecords e) with
  | none => (u, v)
  | some r => localPoint r.region p

/-- A MOVE or DOWN for a BOUND id (R135). -/
def moveContact (c : TouchId) (tag : Nat) (owner : Link) (u v : Nat) (p : TouchPoint) (s : State) : State :=
  let at_ := boundPoint s.engine tag u v p
  notify owner (.touch .move c tag at_.1 at_.2 s.engine.activeEpoch)
    (setContact c (.bound tag owner at_.1 at_.2) s)

/-- An UP for a BOUND id (R136). -/
def liftContact (c : TouchId) (tag : Nat) (owner : Link) (u v : Nat) (p : TouchPoint) (s : State) : State :=
  let at_ := boundPoint s.engine tag u v p
  notify owner (.touch .up c tag at_.1 at_.2 s.engine.activeEpoch) (setContact c .free s)

/-- One entry of a well-formed report against the contact table (R134 to R137). -/
def applyEntry (c : TouchId) (k : TouchKind) (tx ty : Nat) (s : State) : State :=
  let p := mapPoint s.touch.calibration tx ty
  match s.touch.contacts.get c, k with
  | .free, .up => s
  | .free, _ => startContact c p s
  | .bound tag owner u v, .up => liftContact c tag owner u v p s
  | .bound tag owner u v, _ => moveContact c tag owner u v p s
  | .discard, .up => setContact c .free s
  | .discard, _ => s

/-! ## Reports (R127, R128) -/

/-- A checked entry of a report. -/
structure CheckedEntry where
  id : TouchId
  kind : TouchKind
  tx : Nat
  ty : Nat
deriving DecidableEq, Repr

/-- An entry that R127 lets pass. -/
def checkEntry (e : TouchEntry) : Option CheckedEntry :=
  match touchIdOfByte e.id, touchKindOfByte e.event with
  | some c, some k =>
    if e.tx.toNat ≤ 4095 ∧ e.ty.toNat ≤ 4095 then some { id := c, kind := k, tx := e.tx.toNat, ty := e.ty.toNat }
    else none
  | _, _ => none

/-- Every entry checked, or none when one fails. -/
def checkEntries : List TouchEntry → Option (List CheckedEntry)
  | [] => some []
  | e :: es =>
    match checkEntry e, checkEntries es with
    | some x, some xs => some (x :: xs)
    | _, _ => none

/-- A report checked whole: its entries, or none when it is malformed (R127). A read that delivered fewer entries than
the count announces did not complete. -/
def checkReport (count : Byte) (entries : List TouchEntry) : Option (List CheckedEntry) :=
  if 10 < count.toNat ∨ entries.length < count.toNat then none else checkEntries (entries.take count.toNat)

/-- The entries of a report, in order (R128). -/
def applyEntries (es : List CheckedEntry) (s : State) : State :=
  es.foldl (fun s e => applyEntry e.id e.kind e.tx e.ty s) s

/-- The arrival of a report (R127, R128). -/
def takeReport (count : Byte) (entries : List TouchEntry) (s : State) : State :=
  match checkReport count entries with
  | none => countMalformedReport s
  | some es => applyEntries es s

/-- TOUCH_REPORT (R128): the read in progress ends with this report, and the port is IDLE, or READING again when
TOUCH_READY is still high (R126). No report arrives while no read is in progress (log 4). -/
def execTouchReport (count : Byte) (entries : List TouchEntry) (touchReady : Bool) (s : State) : Answer :=
  .next (unlessHeld (fun s =>
    if s.touch.reading then setReading touchReady (takeReport count entries s) else s) s)

/-- TOUCH_READ_START (R126): a port that is IDLE begins a read. -/
def execTouchReadStart (s : State) : Answer := .next (unlessHeld (setReading true) s)

/-- TOUCH_READ_TIMEOUT (R126): the read in progress ends, its report taken as malformed. -/
def execTouchReadTimeout (touchReady : Bool) (s : State) : Answer :=
  .next (unlessHeld (fun s =>
    if s.touch.reading then setReading touchReady (countMalformedReport s) else s) s)

/-! ## SET-TOUCH-CAL (R130) -/

/-- SET-TOUCH-CAL once the command slot has let it through (R130). -/
def setTouchCalEffect (l : Link) (tag : Byte) (gx gy ox oy : Half) (s : State) : State :=
  let c := calibrationOf gx gy ox oy
  match calibrationFault c with
  | some n => answer l tag .setTouchCal .badParam (.field n) s
  | none => answer l tag .setTouchCal .ok (.calibration c s.touch.calibration)
      { s with touch := { s.touch with calibration := c } }

/-- SET-TOUCH-CAL (R130). -/
def execSetTouchCal (l : Link) (tag : Byte) (gx gy ox oy : Half) (s : State) : Answer :=
  .next (slotCommand l tag .setTouchCal (setTouchCalEffect l tag gx gy ox oy) s)

end Sys2Proof.Machine
end

