-- ==== Sys2Proof/Machine/Packets.lean ====
section
/-! DEFINITION. Bytes on a link's forward direction (R145): each packet is checked, a bad one counted, and a valid one
found behind it handed on as the packet it is. -/

namespace Sys2Proof.Machine

/-- The state an answer leaves: the one before, for an answer that is no next state. -/
def stateAfter (x : Answer) (s : State) : State :=
  match x with
  | .next t => t
  | .fault _ => s
  | .refused _ => s

/-- A valid packet handed on according to its kind (R145). A command that is no packet does nothing here. -/
def runPacket (i : Instr) (s : State) : State :=
  match i with
  | .line l p => stateAfter (execLine l p s) s
  | .beginMark l t e => stateAfter (execBeginMark l t e s) s
  | .endMark l t e => stateAfter (execEndMark l t e s) s
  | .unknownCommand l t c => stateAfter (execUnknownCommand l t c s) s
  | .stageOpen l t n b => stateAfter (execStageOpen l t n b s) s
  | .stageRegion l t r => stateAfter (execStageRegion l t r s) s
  | .stageCommit l t => stateAfter (execStageCommit l t s) s
  | .stageDrop l t => stateAfter (execStageDrop l t s) s
  | .slotRead l t n i => stateAfter (execSlotRead l t n i s) s
  | .slotsOpen l t lo hi o => stateAfter (execSlotsOpen l t lo hi o s) s
  | .slotsClose l t => stateAfter (execSlotsClose l t s) s
  | .slotsFreeze l t => stateAfter (execSlotsFreeze l t s) s
  | .setHinge l t h => stateAfter (execSetHinge l t h s) s
  | .setFace l t f => stateAfter (execSetFace l t f s) s
  | .bind l t p f n => stateAfter (execBind l t p f n s) s
  | .postureRead l t => stateAfter (execPostureRead l t s) s
  | .hingeSnapshot l t => stateAfter (execHingeSnapshot l t s) s
  | .switch l t n => stateAfter (execSwitch l t n s) s
  | .setAckWindow l t n => stateAfter (execSetAckWindow l t n s) s
  | .ackEpoch l t e => stateAfter (execAckEpoch l t e s) s
  | .regionClear l t r w => stateAfter (execRegionClear l t r w s) s
  | .regionStatus l t r => stateAfter (execRegionStatus l t r s) s
  | .setRate l t r => stateAfter (execSetRate l t r s) s
  | .resume l t c => stateAfter (execResume l t c s) s
  | .setTouchCal l t gx gy ox oy => stateAfter (execSetTouchCal l t gx gy ox oy s) s
  | .setQuiet l t n => stateAfter (execSetQuiet l t n s) s
  | .wait l t e n => stateAfter (execWait l t e n s) s
  | .abort l t c q => stateAfter (execAbort l t c q s) s
  | .portReset l t => stateAfter (execPortReset l t s) s
  | .status l t => stateAfter (execStatus l t s) s
  | .fetch l t => stateAfter (execFetch l t s) s
  | .powerOnReset | .resetInput | .resetEnd _ _ | .protectPulse | .cutoffAssert | .hingeFall _ | .hingeRise _ _
  | .sensorTimeout | .frameStart _ | .ackWindowExpiry | .quietDetect _ | .waitFrameDone _ | .rowScan
  | .badPacket _ _ | .touchReadStart | .touchReadTimeout _ | .touchReport _ _ _ | .responseSent _ => s

/-- A valid COMMAND packet whose length does not fit its code: counted MALFORMED unless there is no room (R151). -/
def wrongLength (l : Link) (s : State) : State := takeCommand l (countOn l .malformed 1) s

/-- One packet of the bytes, by its verdict (R145). -/
def receiveOne (l : Link) (v : Verdict) (s : State) : State :=
  match v with
  | .incomplete => s
  | .longHeader => countOn l .malformed 1 s
  | .badCrc => countOn l .crcErrors 1 s
  | .malformed => countOn l .malformed 1 s
  | .wrongLength => wrongLength l s
  | .valid i => runPacket i s

/-- The packets of the bytes, one after another, at most `fuel` of them; an incomplete one at the end is no packet
(log 14). -/
def receive (l : Link) : Nat → List Byte → State → State
  | 0, _, s => s
  | fuel + 1, bytes, s =>
    match verdict s.cutoffInput l bytes with
    | .incomplete => s
    | v => receive l fuel (afterPacket bytes) (receiveOne l v s)

/-- BAD_PACKET (R145): the bytes go through the checks; in reset they are lost and not counted (R158). -/
def execBadPacket (l : Link) (bytes : List Byte) (s : State) : Answer :=
  .next (unlessHeld (receive l bytes.length bytes) s)

end Sys2Proof.Machine
end

