-- ==== Sys2Proof/Machine/ResetEvents.lean ====
section
/-! DEFINITION. The two resets of the part and the end of a reset (R24, R25, R46, R78, R104, R105, R125, R144, R158,
R167). -/

namespace Sys2Proof.Machine

/-- The slot table after the RESET input: the staging areas CLOSED, the rest kept (R25). -/
def slotsAfterReset (t : SlotTable) : SlotTable := { t with staging := ⟨none, none⟩ }

/-- The part at a power-on reset. The block content of the store is not cleared (R104), and the commands still waiting
are the outside's; frame 0 begins when the reset ends. One taken while the RESET input is asserted leaves it asserted
(DESIGN CHOICE: the spec does not say; log 5). -/
def powerOn (s : State) : State :=
  { slots := SlotTable.powerOn
    posture := PostureMonitor.fresh Bindings.allHold HingeSettings.default
    engine := Engine.fresh 4
    store := s.store
    scan := Scan.fresh .hz60 .clear
    touch := Touch.fresh Calibration.default
    ports := ⟨Port.fresh 8, Port.fresh 8⟩
    cutoffInput := s.cutoffInput
    phase := if s.phase = .asserted then .asserted else .powerOn
    outputs := { syncPulses := 0, panelRow := none, sent := ⟨[], []⟩ }
    pending := s.pending }

/-- POWER_ON_RESET (R24). -/
def execPowerOnReset (s : State) : Answer := .next (powerOn s)

/-- The part at an assertion of the RESET input (R25, R46, R78, R104, R125, R144, R158, R167). -/
def resetInput (s : State) : State :=
  { slots := slotsAfterReset s.slots
    posture := PostureMonitor.fresh s.posture.bindings s.posture.settings
    engine := Engine.fresh s.engine.ackFrames
    store := s.store
    scan := Scan.fresh s.scan.rate .clear
    touch := Touch.fresh s.touch.calibration
    ports := ⟨Port.fresh s.ports.a.quietFrames, Port.fresh s.ports.b.quietFrames⟩
    cutoffInput := s.cutoffInput
    phase := .asserted
    outputs := s.outputs
    pending := s.pending }

/-- RESET_INPUT (R78). -/
def execResetInput (s : State) : Answer := .next (resetInput s)

/-- Frame 0 begins (R105): SYNC is pulsed and the latch set from the level of CUTOFF (R125); a touch read begins when
TOUCH_READY is high (R144). No block is told of a frame start. -/
def endReset (cutoff touchReady : Bool) (s : State) : State :=
  { s with
    scan := { s.scan with frame := 0, row := some 0, latch := if cutoff then .latched else .clear }
    touch := { s.touch with reading := touchReady }
    cutoffInput := cutoff
    phase := .running
    outputs := { s.outputs with syncPulses := s.outputs.syncPulses + 1 } }

/-- RESET_END (R105); a part that is not in reset has none to end. -/
def execResetEnd (cutoff touchReady : Bool) (s : State) : Answer :=
  .next (if s.phase = .running then s else endReset cutoff touchReady s)

end Sys2Proof.Machine
end

