-- ==== Sys2Proof/Machine/Dispatch.lean ====
section
/-! DEFINITION. Which meaning a command has: one arm per row of spec/opcode_table.json. -/

namespace Sys2Proof.Machine

/-- The effect of a command on everything but the queue. -/
def exec (i : Instr) (s : State) : Host.Outcome State Fault Refusal :=
  match i with
  | .powerOnReset => Sys2Proof.Machine.execPowerOnReset s
  | .resetInput => Sys2Proof.Machine.execResetInput s
  | .resetEnd cutoff touchReady => Sys2Proof.Machine.execResetEnd cutoff touchReady s
  | .protectPulse => Sys2Proof.Machine.execProtectPulse s
  | .cutoffAssert => Sys2Proof.Machine.execCutoffAssert s
  | .hingeFall ticks => Sys2Proof.Machine.execHingeFall ticks s
  | .hingeRise ticks abortsFirst => Sys2Proof.Machine.execHingeRise ticks abortsFirst s
  | .sensorTimeout => Sys2Proof.Machine.execSensorTimeout s
  | .frameStart abortsFirst => Sys2Proof.Machine.execFrameStart abortsFirst s
  | .ackWindowExpiry => Sys2Proof.Machine.execAckWindowExpiry s
  | .quietDetect link => Sys2Proof.Machine.execQuietDetect link s
  | .waitFrameDone link => Sys2Proof.Machine.execWaitFrameDone link s
  | .rowScan => Sys2Proof.Machine.execRowScan s
  | .badPacket link bytes => Sys2Proof.Machine.execBadPacket link bytes s
  | .line link packet => Sys2Proof.Machine.execLine link packet s
  | .beginMark link region epoch => Sys2Proof.Machine.execBeginMark link region epoch s
  | .endMark link region epoch => Sys2Proof.Machine.execEndMark link region epoch s
  | .unknownCommand link tag code => Sys2Proof.Machine.execUnknownCommand link tag code s
  | .stageOpen link tag slot backdrop => Sys2Proof.Machine.execStageOpen link tag slot backdrop s
  | .stageRegion link tag record => Sys2Proof.Machine.execStageRegion link tag record s
  | .stageCommit link tag => Sys2Proof.Machine.execStageCommit link tag s
  | .stageDrop link tag => Sys2Proof.Machine.execStageDrop link tag s
  | .slotRead link tag slot index => Sys2Proof.Machine.execSlotRead link tag slot index s
  | .slotsOpen link tag low high outside => Sys2Proof.Machine.execSlotsOpen link tag low high outside s
  | .slotsClose link tag => Sys2Proof.Machine.execSlotsClose link tag s
  | .slotsFreeze link tag => Sys2Proof.Machine.execSlotsFreeze link tag s
  | .setHinge link tag fields => Sys2Proof.Machine.execSetHinge link tag fields s
  | .setFace link tag face => Sys2Proof.Machine.execSetFace link tag face s
  | .bind link tag posture face slot => Sys2Proof.Machine.execBind link tag posture face slot s
  | .postureRead link tag => Sys2Proof.Machine.execPostureRead link tag s
  | .hingeSnapshot link tag => Sys2Proof.Machine.execHingeSnapshot link tag s
  | .switch link tag slot => Sys2Proof.Machine.execSwitch link tag slot s
  | .setAckWindow link tag n => Sys2Proof.Machine.execSetAckWindow link tag n s
  | .ackEpoch link tag epoch => Sys2Proof.Machine.execAckEpoch link tag epoch s
  | .regionClear link tag region which => Sys2Proof.Machine.execRegionClear link tag region which s
  | .regionStatus link tag region => Sys2Proof.Machine.execRegionStatus link tag region s
  | .setRate link tag rate => Sys2Proof.Machine.execSetRate link tag rate s
  | .resume link tag cutoff => Sys2Proof.Machine.execResume link tag cutoff s
  | .setTouchCal link tag gx gy ox oy => Sys2Proof.Machine.execSetTouchCal link tag gx gy ox oy s
  | .setQuiet link tag n => Sys2Proof.Machine.execSetQuiet link tag n s
  | .wait link tag event n => Sys2Proof.Machine.execWait link tag event n s
  | .abort link tag condition quiet => Sys2Proof.Machine.execAbort link tag condition quiet s
  | .portReset link tag => Sys2Proof.Machine.execPortReset link tag s
  | .status link tag => Sys2Proof.Machine.execStatus link tag s
  | .fetch link tag => Sys2Proof.Machine.execFetch link tag s
  | .touchReadStart => Sys2Proof.Machine.execTouchReadStart s
  | .touchReadTimeout touchReady => Sys2Proof.Machine.execTouchReadTimeout touchReady s
  | .touchReport count entries touchReady => Sys2Proof.Machine.execTouchReport count entries touchReady s
  | .responseSent link => Sys2Proof.Machine.execResponseSent link s

end Sys2Proof.Machine
end

