-- ==== Sys2Proof/Safety.lean ====
section
/-! DEFINITION. The terms in which claims are made: what a command leaves as it was, when a link's command is taken, how
it is answered, and the laws that every state of a run keeps. -/

namespace Sys2Proof.Machine

/-! ## Frames -/

/-- The parts of the state. -/
inductive Part where
  | slots
  | posture
  | engine
  | store
  | scan
  | touch
  | port (l : Link)
  | cutoffInput
  | phase
  | outputs
  | queue
deriving DecidableEq, Repr

/-- Two states agree in a part. -/
def samePart : Part → State → State → Prop
  | .slots, s, t => t.slots = s.slots
  | .posture, s, t => t.posture = s.posture
  | .engine, s, t => t.engine = s.engine
  | .store, s, t => t.store = s.store
  | .scan, s, t => t.scan = s.scan
  | .touch, s, t => t.touch = s.touch
  | .port l, s, t => t.port l = s.port l
  | .cutoffInput, s, t => t.cutoffInput = s.cutoffInput
  | .phase, s, t => t.phase = s.phase
  | .outputs, s, t => t.outputs = s.outputs
  | .queue, s, t => t.pending = s.pending

/-- `t` is `s` in every part but those listed. -/
def SameBut (changed : List Part) (s t : State) : Prop := ∀ p, p ∉ changed → samePart p s t

/-! ## Commands of a link -/

/-- The part is out of reset, and takes packets and events (R158; log 5). -/
abbrev TakesPackets (s : State) : Prop := s.phase = .running

/-- A command on link `l` is taken: fewer than 8 responses wait (R151). -/
abbrev TakesCommand (l : Link) (s : State) : Prop := TakesPackets s ∧ (s.port l).responses.length < 8

/-- A command that uses the command slot of link `l` is run: the slot is empty (R151, step 5). -/
abbrev SlotFree (l : Link) (s : State) : Prop := TakesCommand l s ∧ (s.port l).slot = none

/-- The response that link `l` produces stands last in its port, which is otherwise as the packet's arrival left it. -/
def AnswersWith (l : Link) (tag : Byte) (c : Command) (status : Status) (results : Results) (s t : State) : Prop :=
  t.port l = { (arrive l s).port l with
    responses := ((arrive l s).port l).responses
      ++ [{ tag := tag, code := commandCode c, status := status, results := results }] }

/-- A command refused with a status: nothing but the port of its link has changed. -/
def RefusedWith (l : Link) (tag : Byte) (c : Command) (status : Status) (results : Results) (s t : State) : Prop :=
  SameBut [.port l] s t ∧ AnswersWith l tag c status results s t

/-- A counter of link `l` has risen by 1 on top of a state, and nothing else has changed. -/
def CountedOn (l : Link) (k : CounterName) (s t : State) : Prop :=
  SameBut [.port l] s t ∧ t.port l = Port.count k 1 (s.port l)

/-- A port after a notice is handed to its link (R159). -/
def handed (n : Notice) (p : Port) : Port := if p.state = .offline then p else placeNotice n p

/-- A port after several notices are handed to its link, one after another. -/
def handedAll (ns : List Notice) (p : Port) : Port := ns.foldl (fun q n => handed n q) p

/-- The CANCEL notices for a link, in order of touch id: its BOUND contacts whose tags are not kept (R139, R140). -/
def cancelsFor (l : Link) (reason : CancelReason) (epoch : Word) (kept : List Nat) (v : Vector Contact 10) :
    List Notice :=
  touchIds.filterMap (fun c => match v.get c with
    | .bound tag owner x y =>
      if owner = l ∧ tag ∉ kept then some (.cancel c tag x y epoch reason) else none
    | _ => none)

/-- A contact after a cancellation that keeps some tags. -/
def contactAfterCancel (kept : List Nat) (x : Contact) : Contact :=
  match x with
  | .bound tag _ _ _ => if tag ∈ kept then x else .discard
  | _ => x

/-- The link, tag and command of a row that uses the command slot (section 7.9). -/
def slotUser : Instr → Option (Link × Byte × Command)
  | .stageOpen l tag _ _ => some (l, tag, .stageOpen)
  | .stageRegion l tag _ => some (l, tag, .stageRegion)
  | .stageCommit l tag => some (l, tag, .stageCommit)
  | .stageDrop l tag => some (l, tag, .stageDrop)
  | .slotRead l tag _ _ => some (l, tag, .slotRead)
  | .slotsOpen l tag _ _ _ => some (l, tag, .slotsOpen)
  | .slotsClose l tag => some (l, tag, .slotsClose)
  | .slotsFreeze l tag => some (l, tag, .slotsFreeze)
  | .setHinge l tag _ => some (l, tag, .setHinge)
  | .setFace l tag _ => some (l, tag, .setFace)
  | .bind l tag _ _ _ => some (l, tag, .bind)
  | .postureRead l tag => some (l, tag, .postureRead)
  | .hingeSnapshot l tag => some (l, tag, .hingeSnapshot)
  | .switch l tag _ => some (l, tag, .switch)
  | .setAckWindow l tag _ => some (l, tag, .setAckWindow)
  | .regionClear l tag _ _ => some (l, tag, .regionClear)
  | .regionStatus l tag _ => some (l, tag, .regionStatus)
  | .setRate l tag _ => some (l, tag, .setRate)
  | .resume l tag _ => some (l, tag, .resume)
  | .setTouchCal l tag _ _ _ _ => some (l, tag, .setTouchCal)
  | .setQuiet l tag _ => some (l, tag, .setQuiet)
  | .wait l tag _ _ => some (l, tag, .wait)
  | _ => none

/-- The link of a COMMAND packet. -/
def commandLink : Instr → Option Link
  | .unknownCommand l _ _ => some l
  | .ackEpoch l _ _ => some l
  | .abort l _ _ _ => some l
  | .portReset l _ => some l
  | .status l _ => some l
  | .fetch l _ => some l
  | i => (slotUser i).map (·.1)

/-- The events that a part takes before its reset has ended. -/
def takenInReset : Instr → Bool
  | .powerOnReset => true
  | .resetInput => true
  | .resetEnd _ _ => true
  | .protectPulse => true
  | _ => false

/-- The rows that are a frame start (R106; log 8). -/
def isFrameStart : Instr → Bool
  | .frameStart _ => true
  | .ackWindowExpiry => true
  | .quietDetect _ => true
  | .waitFrameDone _ => true
  | _ => false

/-- The two resets of the part. -/
def isReset : Instr → Bool
  | .powerOnReset => true
  | .resetInput => true
  | _ => false

/-- BAD_PACKET, whose bytes may hold several packets. -/
def isBytes : Instr → Bool
  | .badPacket _ _ => true
  | _ => false

/-- The link that a forward packet arrives on. -/
def packetLink : Instr → Option Link
  | .line l _ => some l
  | .beginMark l _ _ => some l
  | .endMark l _ _ => some l
  | i => commandLink i

/-- The level of CUTOFF that a packet's row carries: RESUME's own, any level for the others (log 3). -/
def carriesLevel (cutoff : Bool) : Instr → Bool
  | .resume _ _ c => c == cutoff
  | _ => true

/-- The level of CUTOFF last known after a command that is discarded or refused: RESUME's own, else as before (log 3). -/
def levelAfter : Instr → Bool → Bool
  | .resume _ _ c, _ => c
  | _, level => level

/-! ## The field tables of the spec -/

/-- The check of a region record's field by its number (R2, R3). -/
def fieldPasses (r : RegionRecord) : Nat → Prop
  | 1 => 1 ≤ r.tag.toNat ∧ r.tag.toNat ≤ 15
  | 2 => r.owner.toNat ≤ 2
  | 3 => r.kind.toNat ≤ 1 ∧ (r.owner.toNat = 0 → r.kind.toNat = 0)
  | 4 => (r.kind.toNat = 0 → r.buffering.toNat = 0) ∧
      (r.kind.toNat ≠ 0 → r.buffering.toNat = 1 ∨ r.buffering.toNat = 2)
  | 5 => r.col0.toNat ≤ 2472 ∧ r.col0.toNat % 8 = 0
  | 6 => 8 ≤ r.width.toNat ∧ r.width.toNat ≤ 2480 ∧ r.width.toNat % 8 = 0 ∧ r.col0.toNat + r.width.toNat ≤ 2480
  | 7 => r.row0.toNat ≤ 2199
  | 8 => 1 ≤ r.height.toNat ∧ r.height.toNat ≤ 2200 ∧ r.row0.toNat + r.height.toNat ≤ 2200
  | 9 => r.orientation.toNat ≤ 1 ∧ (r.kind.toNat = 0 → r.orientation.toNat = 0)
  | 10 => True
  | 11 => r.touch.toNat ≤ 1
  | _ => False

/-- The region that a record which passes names (section 9.5). -/
def regionNamed (r : RegionRecord) : Region :=
  { tag := r.tag.toNat
    owner := if r.owner.toNat = 0 then none else if r.owner.toNat = 1 then some .a else some .b
    content := if r.kind.toNat = 0 then .streamed else if r.buffering.toNat = 1 then .single else .double
    col0 := r.col0.toNat, width := r.width.toNat, row0 := r.row0.toNat, height := r.height.toNat
    orientation := if r.orientation.toNat = 0 then .upright else .turned
    fill := r.fill
    touch := if r.touch.toNat = 0 then .ignore else .route }

/-- The check of a hinge setting by its number (R37). -/
def settingPasses (h : HingeFields) : Nat → Prop
  | 1 => h.foldEnter.toNat ≤ 1800
  | 2 => h.foldExit.toNat ≤ 1800 ∧ h.foldEnter.toNat < h.foldExit.toNat
  | 3 => h.flatExit.toNat ≤ 1800 ∧ h.foldExit.toNat < h.flatExit.toNat
  | 4 => h.flatEnter.toNat ≤ 1800 ∧ h.flatExit.toNat < h.flatEnter.toNat
  | 5 => 1 ≤ h.dwell.toNat ∧ h.dwell.toNat ≤ 32
  | 6 => h.zero.toNat ≤ 3599
  | 7 => 5 ≤ h.timeout.toNat ∧ h.timeout.toNat ≤ 255
  | _ => False

/-- The check of a calibration field by its number (R130). -/
def calibrationPasses (gx gy ox oy : Half) : Nat → Prop
  | 1 => 1 ≤ gx.toNat
  | 2 => 1 ≤ gy.toNat
  | 3 => -4096 ≤ ox.toInt ∧ ox.toInt ≤ 4095
  | 4 => -4096 ≤ oy.toInt ∧ oy.toInt ≤ 4095
  | _ => False

/-- Field `n` of 1 to `last` is the first that fails. -/
def FirstFailing (passes : Nat → Prop) (last n : Nat) : Prop :=
  1 ≤ n ∧ n ≤ last ∧ ¬ passes n ∧ ∀ m, 1 ≤ m → m < n → passes m

/-- Every field of 1 to `last` passes. -/
def AllPass (passes : Nat → Prop) (last : Nat) : Prop := ∀ m, 1 ≤ m → m ≤ last → passes m

/-- Two regions share a pixel (R13). -/
def SharesPixel (x y : Region) : Prop :=
  x.col0 < y.col0 + y.width ∧ y.col0 < x.col0 + x.width ∧ x.row0 < y.row0 + y.height ∧ y.row0 < x.row0 + x.height

/-- Entries `i` and `j` of a list, in that order, stand in a relation. -/
def PairAt (rel : Region → Region → Prop) (rs : List Region) (i j : Nat) : Prop :=
  i < j ∧ ∃ x y, rs[i]? = some x ∧ rs[j]? = some y ∧ rel x y

/-- The first such pair in the order (0, 1), (0, 2), ..., (1, 2), ... (R13). -/
def FirstPairAt (rel : Region → Region → Prop) (rs : List Region) (i j : Nat) : Prop :=
  PairAt rel rs i j ∧ ∀ i' j', PairAt rel rs i' j' → i < i' ∨ (i = i' ∧ j ≤ j')

/-- A list in the order of R5. -/
def SortedByPlace (rs : List Region) : Prop :=
  rs.Pairwise (fun x y => x.row0 < y.row0 ∨ (x.row0 = y.row0 ∧ x.col0 ≤ y.col0))

/-- A run of `need` blocks from block `first` lies in the store and meets no run of a map. -/
def Fits (map : List Run) (need first : Nat) : Prop :=
  first + need ≤ 1536 ∧ ∀ r ∈ map, first + need ≤ r.first ∨ r.first + r.count ≤ first

/-- A free gap of the store among some runs, first block and length: it meets no run, and a run or an end of the store
stands on either side (R81). -/
def FreeGap (runs : List Run) (g : Nat × Nat) : Prop :=
  1 ≤ g.2 ∧ Fits runs g.2 g.1 ∧ (g.1 = 0 ∨ ∃ r ∈ runs, r.first + r.count = g.1)
    ∧ (g.1 + g.2 = 1536 ∨ ∃ r ∈ runs, r.first = g.1 + g.2)

/-! ## Laws of the slot table -/

/-- A region that STAGE-REGION lets pass (R2, R3). -/
abbrev RegionOk (g : Region) : Prop :=
  1 ≤ g.tag ∧ g.tag ≤ 15 ∧ g.col0 % 8 = 0 ∧ 8 ≤ g.width ∧ g.width % 8 = 0 ∧ g.col0 + g.width ≤ 2480 ∧ 1 ≤ g.height
    ∧ g.row0 + g.height ≤ 2200 ∧ (g.owner = none → g.content = .streamed)
    ∧ (g.content = .streamed → g.orientation = .upright)

/-- A region list that STAGE-COMMIT lets pass (R5, R12, R13, R14). -/
def layoutOk (rs : List Region) : Bool :=
  decide (rs.length ≤ 8 ∧ (∀ g ∈ rs, RegionOk g) ∧ rs.Pairwise (fun x y => overlaps x y = false)
    ∧ rs.Pairwise (fun x y => x.tag ≠ y.tag) ∧ layoutNeed rs ≤ 1536
    ∧ rs.Pairwise (fun x y => sortsBefore x y = true))

/-- A staging area holds at most 8 records, each passed by STAGE-REGION (R9). -/
abbrev StagingOk (x : Option Staging) : Prop := ∀ st ∈ x, st.records.length ≤ 8 ∧ ∀ g ∈ st.records, RegionOk g

/-- The laws of the slot table (R9, R13, R19). -/
abbrev SlotsOk (s : State) : Prop :=
  (∀ n : SlotNo, layoutOk (s.slots.slots.get n).regions = true) ∧ s.slots.low ≤ s.slots.high
    ∧ StagingOk s.slots.staging.a ∧ StagingOk s.slots.staging.b

/-! ## Laws of a link port -/

/-- The count of a WAIT for FRAME is 1 to 255 (R153). -/
def waitOk (x : Option Running) : Bool :=
  match x with
  | some (.waitFrame _ n) => decide (1 ≤ n ∧ n ≤ 255)
  | _ => true

/-- The laws of a port and its notice queue (chapters 7 and 8: R148, R150, R152, R159, R162). -/
abbrev PortOk (p : Port) : Prop :=
  p.stream.length ≤ 48 ∧ (40 ≤ p.stream.length → p.hold = true) ∧ (p.stream.length ≤ 32 → p.hold = false)
    ∧ p.notices.length ≤ 32 ∧ moveCount p.notices ≤ 24 ∧ (p.state = .offline → p.notices = [])
    ∧ p.responses.length ≤ 9 ∧ (p.slot ≠ none → p.responses.length ≤ 8) ∧ (p.armed ≠ none → p.slot ≠ none)
    ∧ 1 ≤ p.quietFrames ∧ p.quietFrames ≤ 255 ∧ p.quiet ≤ p.quietFrames
    ∧ (p.state = .online → p.quiet < p.quietFrames) ∧ waitOk p.slot = true

/-- The laws of both ports. -/
abbrev PortsOk (s : State) : Prop := PortOk (s.port .a) ∧ PortOk (s.port .b)

/-! ## Laws of the posture monitor -/

/-- The settings that SET-HINGE lets pass (R37). -/
abbrev SettingsOk (h : HingeSettings) : Prop :=
  h.foldEnter < h.foldExit ∧ h.foldExit < h.flatExit ∧ h.flatExit < h.flatEnter ∧ h.flatEnter ≤ 1800
    ∧ 1 ≤ h.dwell ∧ h.dwell ≤ 32 ∧ h.zero ≤ 3599 ∧ 5 ≤ h.timeout ∧ h.timeout ≤ 255

/-- The laws of the posture monitor (R28, R29, R31, R33, R37). -/
abbrev PostureOk (m : PostureMonitor) : Prop :=
  SettingsOk m.settings ∧ m.dwellCount < m.settings.dwell ∧ (m.dwellCount = 0 ↔ m.counting = none)
    ∧ m.counting ≠ some m.posture ∧ m.counting ≠ some .unknown
    ∧ (∀ w ∈ m.window, w.h1 ≤ 1800 ∧ w.h2 ≤ 1800 ∧ w.h3 ≤ 1800 ∧ w.h4 ≤ 1800)
    ∧ (∀ v ∈ m.last, v.hinge ≤ 1800 ∧ v.filtered ≤ 1800)
    ∧ (∀ r ∈ m.snapshot, 400 ≤ r.period ∧ r.period ≤ 4000 ∧ 1 ≤ r.high ∧ r.high < r.period ∧ r.angle ≤ 3599
        ∧ r.hinge ≤ 1800 ∧ r.filtered ≤ 1800)
    ∧ (m.last = none ↔ m.sensor = .none) ∧ (m.running = none ↔ m.sensor ≠ .ok)
    ∧ (∀ n ∈ m.running, 5 ≤ n ∧ n ≤ 255) ∧ (m.posture ≠ .unknown → m.last ≠ none)

/-! ## Laws of the transition engine -/

/-- One set of links lies in another. -/
abbrev SubLinks (x y : LinkSet) : Prop := (x.a = true → y.a = true) ∧ (x.b = true → y.b = true)

/-- The port's command slot holds a SWITCH. -/
def holdsSwitch (p : Port) : Bool :=
  match p.slot with
  | some (.switch _) => true
  | _ => false

/-- The requesting link of the pending transition is `l` (R64). -/
def requesterIs (l : Link) (e : Engine) : Bool :=
  match e.pending with
  | some p => p.requester == some l
  | none => false

/-- The laws of a pending transition (R47, R48, R56, R57, R8). -/
abbrev PendingOk (s : State) (p : Pending) : Prop :=
  p.epoch = s.engine.epochCounter ∧ s.engine.activeEpoch < p.epoch ∧ s.engine.active.slot ≠ some p.slot
    ∧ 1 ≤ p.window ∧ p.window ≤ 15 ∧ SubLinks p.acked p.ackSet ∧ (p.armed = true ↔ p.acked = p.ackSet)
    ∧ s.slots.slots.get p.slot = { generation := p.generation, backdrop := p.backdrop, regions := p.regions }

/-- The laws of the transition engine (R8, R47, R48, R64, R77). -/
abbrev EngineOk (s : State) : Prop :=
  s.engine.activeEpoch ≤ s.engine.epochCounter ∧ 1 ≤ s.engine.ackFrames ∧ s.engine.ackFrames ≤ 15
    ∧ (∀ p ∈ s.engine.pending, PendingOk s p)
    ∧ (∀ n ∈ s.engine.active.slot, (s.slots.slots.get n).generation = s.engine.active.generation
        ∧ (s.slots.slots.get n).backdrop = s.engine.active.backdrop)
    ∧ holdsSwitch (s.port .a) = requesterIs .a s.engine ∧ holdsSwitch (s.port .b) = requesterIs .b s.engine

/-! ## Laws of the runtime records and the store -/

/-- A buffer of a region: a row flag for each row, and the run that its size needs (R80, R87). -/
abbrev BufferOk (g : Region) (b : Buffer) : Prop :=
  b.valid.length = g.height ∧ b.count = blocks g.width g.height

/-- The buffers that a region's content calls for (R69, R80), and what REGION-CLEAR and END leave in them (R96, R100). -/
def buffersOk (g : Region) (m : Membership) (x : Option Buffers) : Bool :=
  match g.content, x with
  | .streamed, none => true
  | .single, some b => decide (BufferOk g b.front ∧ b.front.label = .a ∧ b.back = none ∧ b.backState = .idle
      ∧ b.flipped = false ∧ b.clearDue = none)
  | .double, some b => decide (BufferOk g b.front ∧ (∀ k ∈ b.back, BufferOk g k ∧ k.label ≠ b.front.label)
      ∧ b.back ≠ none ∧ (m = .pending → b.backState ≠ .complete ∧ b.clearDue = none)
      ∧ (∀ lab ∈ b.clearDue, lab = b.front.label))
  | _, _ => false

/-- The laws of one runtime record (R69, R70, R73, R74). -/
abbrev RecordOk (s : State) (r : RuntimeRecord) : Prop :=
  RegionOk r.region ∧ buffersOk r.region r.membership r.buffers = true ∧ 1 ≤ r.entryEpoch
    ∧ (r.membership ≠ .pending → r.entryEpoch ≤ s.engine.activeEpoch)
    ∧ (r.membership = .pending → pendingEpoch s.engine = some r.entryEpoch ∧ r.gate = .closed)
    ∧ (r.region.owner = none → r.gate = .closed)
    ∧ (s.engine.pending = none → r.membership = .active)

/-- A pending layout's region is one of the records of the pending layout: a carried one or its own (R52, R54). -/
abbrev RegionKept (rs : List RuntimeRecord) (new : Region) : Prop :=
  ∃ r ∈ rs, (r.membership = .both ∧ carries r.region new = true) ∨ (r.membership = .pending ∧ r.region = new)

/-- The laws of the runtime records (R52, R69): tags name one record of a layout, the active records are the active
slot's regions in their order, and the pending layout's regions have their records. -/
abbrev RecordsOk (s : State) : Prop :=
  (∀ r ∈ s.engine.records, RecordOk s r)
    ∧ (activeRecords s.engine).Pairwise (fun x y => x.region.tag ≠ y.region.tag)
    ∧ (pendingRecords s.engine).Pairwise (fun x y => x.region.tag ≠ y.region.tag)
    ∧ (s.engine.active.slot = none → activeRecords s.engine = [])
    ∧ (∀ n ∈ s.engine.active.slot, (activeRecords s.engine).map (·.region) = (s.slots.slots.get n).regions)
    ∧ (∀ p ∈ s.engine.pending, (∀ new ∈ p.regions, RegionKept s.engine.records new)
        ∧ ∀ r ∈ pendingRecords s.engine, ∃ new ∈ p.regions, new.tag = r.region.tag)

/-- No store block is held by two buffers, and every run lies in the store (R81). -/
abbrev RunsOk (e : Engine) : Prop :=
  (e.records.flatMap recordRuns).Pairwise (fun x y => x.first + x.count ≤ y.first ∨ y.first + y.count ≤ x.first)
    ∧ ∀ r ∈ e.records.flatMap recordRuns, 1 ≤ r.count ∧ r.first + r.count ≤ 1536

/-- The laws of the region store (R81), and the canonical form of its memory. -/
abbrev StoreOk (s : State) : Prop := RunsOk s.engine ∧ Memory.wf s.store = true

/-! ## The law of the contact table -/

/-- A BOUND contact names a region of the active layout that its link owns and whose gate is OPEN (R133). -/
def contactOk (e : Engine) (c : Contact) : Bool :=
  match c with
  | .bound tag owner _ _ => (activeRecords e).any (fun r =>
      decide (r.region.tag = tag ∧ r.region.owner = some owner ∧ r.gate = .opened))
  | _ => true

/-- The law of the contact table (R133). -/
abbrev ContactsOk (s : State) : Prop := ∀ c : TouchId, contactOk s.engine (s.touch.contacts.get c) = true

end Sys2Proof.Machine
end

