-- ==== Sys2Proof/WellFormed.lean ====
section
/-! DEFINITION. Which terms of `Instr` the outside world can send: what the packet and report formats of chapter 9 and
the names of the table's rows leave out. -/

namespace Sys2Proof

/-- A LINE packet names at most 2480 pixels, the largest payload R168 lets pass. -/
def Line.wellFormed (p : Line) : Bool := p.pixels.length ≤ Config.panelColumns

/-- An UNKNOWN_COMMAND packet's code names no command (R151). -/
def unknownCode (code : Byte) : Bool := (commandOfCode code).isNone

/-- A BAD_PACKET is bytes whose first packet is complete and fails a check of R145, or step 2 of R151. -/
def badBytes (l : Link) (bytes : List Byte) : Bool :=
  match verdict false l bytes with
  | .longHeader | .badCrc | .malformed | .wrongLength => true
  | .incomplete | .valid _ => false

/-- A touch report that is read to its end holds as many entries as its count announces, and none when the count is
above 10 (R126). -/
def reportShape (count : Byte) (entries : List TouchEntry) : Bool :=
  if 10 < count.toNat then entries.isEmpty else entries.length == count.toNat

/-- The well-formed commands. -/
def Instr.wellFormed : Instr → Bool
  | .line _ p => p.wellFormed
  | .unknownCommand _ _ code => unknownCode code
  | .badPacket l bytes => badBytes l bytes
  | .touchReport count entries _ => reportShape count entries
  | .powerOnReset | .resetInput | .resetEnd _ _ | .protectPulse | .cutoffAssert | .hingeFall _ | .hingeRise _ _
  | .sensorTimeout | .frameStart _ | .ackWindowExpiry | .quietDetect _ | .waitFrameDone _ | .rowScan
  | .beginMark _ _ _ | .endMark _ _ _ | .stageOpen _ _ _ _ | .stageRegion _ _ _ | .stageCommit _ _ | .stageDrop _ _
  | .slotRead _ _ _ _ | .slotsOpen _ _ _ _ _ | .slotsClose _ _ | .slotsFreeze _ _ | .setHinge _ _ _
  | .setFace _ _ _ | .bind _ _ _ _ _ | .postureRead _ _ | .hingeSnapshot _ _ | .switch _ _ _
  | .setAckWindow _ _ _ | .ackEpoch _ _ _ | .regionClear _ _ _ _ | .regionStatus _ _ _ | .setRate _ _ _
  | .resume _ _ _ | .setTouchCal _ _ _ _ _ _ | .setQuiet _ _ _ | .wait _ _ _ _ | .abort _ _ _ _ | .portReset _ _
  | .status _ _ | .fetch _ _ | .touchReadStart | .touchReadTimeout _ | .responseSent _ => true

end Sys2Proof
end

