-- ==== Sys2Proof/Certificates/Slice0/Obligations.lean ====
section
/-! DEFINITION. The statements about the DX48, one definition each. A statement about a command says what the state
after it holds and, by `SameBut`, what it leaves as it was. Where a link was OFFLINE, its port is compared with what the
packet's arrival leaves (`arrive`, R147), which has a statement of its own. -/

open Sys2Proof Sys2Proof.Machine

/-! ## The step and the resets -/

/-- A step runs the command at the front of the queue with the queue's rest; on an empty queue nothing changes. The
queue and its idling are the model's own (log 1). -/
def Obligations.StepRunsFrontCommand : Prop :=
  (∀ (c : Instr) (rest : List Instr) (s : State),
    step { s with pending := c :: rest } = exec c { s with pending := rest })
  ∧ ∀ s : State, s.pending = [] → step s = .next s

/-- Every command completes, whatever the state, and leaves the queue alone (no rule stops the part: log 19). -/
def Obligations.EveryCommandCompletesAndKeepsQueue : Prop :=
  ∀ (c : Instr) (s : State), ∃ t, exec c s = .next t ∧ t.pending = s.pending

/-- What a power-on reset leaves: section 1.7 for the slot table, 2.10 for the posture monitor, 3.10 for the engine,
5.6 for the scan engine, 6.7 for the touch router, 7.11 and 8.6 for the links. The content of the store's blocks is
kept (section 4.8). The spec gives EMPTY no generation (R7): the 0 in the active layout's generation field is the
model's choice (log 27). -/
def Obligations.PowerOnResetsEveryBlock : Prop :=
  ∀ s : State, ∃ t, exec .powerOnReset s = .next t
    ∧ (∀ n : SlotNo, t.slots.slots.get n = { generation := 0, backdrop := ⟨0, 0, 0⟩, regions := [] }
        ∧ slotLocked t.slots n = false ∧ slotUse t.engine n = .none)
    ∧ t.slots.low = 0 ∧ t.slots.high = 7 ∧ t.slots.outside = false ∧ t.slots.freeze = false
    ∧ t.slots.staging = ⟨none, none⟩
    ∧ t.posture =
        { measurement := none, rejects := 0, window := none, last := none, posture := .unknown,
          dwellCount := 0, counting := none, face := .front, sensor := .none, running := none, snapshot := none,
          bindings := ⟨.hold, .hold, .hold, .hold, .hold, .hold⟩, stalled := false,
          settings := ⟨250, 350, 1600, 1700, 6, 0, 20⟩ }
    ∧ t.engine.active = { slot := none, generation := 0, backdrop := ⟨0, 0, 0⟩ } ∧ t.engine.activeEpoch = 0
    ∧ t.engine.epochCounter = 0 ∧ t.engine.pending = none ∧ t.engine.records = [] ∧ t.engine.ackFrames = 4
    ∧ t.store = s.store
    ∧ t.scan.frame = 0 ∧ t.scan.row = some 0 ∧ t.scan.rate = .hz60 ∧ t.scan.nextRate = .hz60
    ∧ t.touch.reading = false ∧ t.touch.calibration = { gx := 39689, gy := 35208, ox := 0, oy := 0 }
    ∧ t.touch.malformed = 0 ∧ (∀ c : TouchId, t.touch.contacts.get c = .free)
    ∧ (∀ l : Link, t.port l =
        { state := .offline, quiet := 0, quietFrames := 8, slot := none, armed := none, stream := [], hold := false,
          responses := [], counters := ⟨0, 0, 0, 0, 0, 0, 0, 0⟩, notices := [] }
        ∧ attn (t.port l) = false)

/-- What the RESET input keeps: the slots with their range and freeze, the bindings and hinge settings, ACK_FRAMES,
RATE, the calibration, QUIET_FRAMES and the store's content; everything else takes its reset state. The spec gives
EMPTY no generation (R7): the 0 in the active layout's generation field is the model's choice (log 27). -/
def Obligations.ResetInputKeepsSettings : Prop :=
  ∀ s : State, ∃ t, exec .resetInput s = .next t
    ∧ t.slots = { s.slots with staging := ⟨none, none⟩ } ∧ (∀ n : SlotNo, slotUse t.engine n = .none)
    ∧ t.posture =
        { measurement := none, rejects := 0, window := none, last := none, posture := .unknown,
          dwellCount := 0, counting := none, face := .front, sensor := .none, running := none, snapshot := none,
          bindings := s.posture.bindings, stalled := false, settings := s.posture.settings }
    ∧ t.engine.active = { slot := none, generation := 0, backdrop := ⟨0, 0, 0⟩ } ∧ t.engine.activeEpoch = 0
    ∧ t.engine.epochCounter = 0 ∧ t.engine.pending = none ∧ t.engine.records = [] ∧ t.engine.ackFrames = s.engine.ackFrames
    ∧ t.store = s.store
    ∧ t.scan.frame = 0 ∧ t.scan.row = some 0 ∧ t.scan.rate = s.scan.rate ∧ t.scan.nextRate = s.scan.rate
    ∧ t.touch.reading = false ∧ t.touch.calibration = s.touch.calibration ∧ t.touch.malformed = 0
    ∧ (∀ c : TouchId, t.touch.contacts.get c = .free)
    ∧ (∀ l : Link, t.port l =
        { state := .offline, quiet := 0, quietFrames := (s.port l).quietFrames, slot := none, armed := none,
          stream := [], hold := false, responses := [], counters := ⟨0, 0, 0, 0, 0, 0, 0, 0⟩, notices := [] }
        ∧ attn (t.port l) = false)

/-- From a reset to its end the part takes no packet, no edge, no frame start, no row, no report and no change of CUTOFF;
a PROTECT pulse, the resets and the end of a reset are taken. A power-on reset taken while the RESET input is asserted
leaves it asserted. The end of a reset begins frame 0: SYNC is pulsed, the frame counter is 0, row 0 is first, the latch
is set when CUTOFF is asserted then, and a read begins when TOUCH_READY is high; nothing else changes. That a power-on
reset holds the part as the RESET input does, that one RESET_END ends both, and that a part which is not in reset has no
reset to end, are the model's choices (log 5). -/
def Obligations.ResetHoldsPartUntilItsEnd : Prop :=
  (∀ (c : Instr) (s : State), s.phase ≠ .running → takenInReset c = false → exec c s = .next s)
  ∧ (∀ s : State, ∃ t u, exec .powerOnReset s = .next t ∧ exec .resetInput s = .next u
      ∧ t.phase = (if s.phase = .asserted then .asserted else .powerOn) ∧ u.phase = .asserted)
  ∧ ∀ (s : State) (cutoff touchReady : Bool),
    (s.phase ≠ .running → ∃ t, exec (.resetEnd cutoff touchReady) s = .next t
      ∧ SameBut [.scan, .touch, .cutoffInput, .phase, .outputs] s t
      ∧ t.scan = { s.scan with frame := 0, row := some 0, latch := if cutoff then .latched else .clear }
      ∧ t.touch = { s.touch with reading := touchReady }
      ∧ t.cutoffInput = cutoff ∧ t.phase = .running
      ∧ t.outputs = { s.outputs with syncPulses := s.outputs.syncPulses + 1 })
    ∧ (s.phase = .running → exec (.resetEnd cutoff touchReady) s = .next s)

/-! ## The slot table -/

/-- STAGE-OPEN's three checks in order, and its effect; STAGE-DROP closes an OPEN staging area and leaves every slot and
the other link's staging as they were. -/
def Obligations.StageOpenAndDropFollowTheirChecks : Prop :=
  (∀ (l : Link) (tag slot : Byte) (backdrop : Colour) (s : State), SlotFree l s →
    ∃ t, exec (.stageOpen l tag slot backdrop) s = .next t
      ∧ (8 ≤ slot.toNat → RefusedWith l tag .stageOpen .badParam .none s t)
      ∧ ∀ n : SlotNo, n.val = slot.toNat →
        (slotLocked s.slots n = true → RefusedWith l tag .stageOpen .locked .none s t)
        ∧ (slotLocked s.slots n = false → slotUse s.engine n ≠ .none →
            RefusedWith l tag .stageOpen .inUse .none s t)
        ∧ (slotLocked s.slots n = false → slotUse s.engine n = .none →
            SameBut [.slots, .port l] s t ∧ AnswersWith l tag .stageOpen .ok .none s t
            ∧ t.slots = { s.slots with
                staging := s.slots.staging.set l (some { slot := n, backdrop := backdrop, records := [] }) }))
  ∧ ∀ (l : Link) (tag : Byte) (s : State), SlotFree l s →
    ∃ t, exec (.stageDrop l tag) s = .next t
      ∧ (s.slots.staging.get l = none → RefusedWith l tag .stageDrop .notOpen .none s t)
      ∧ (s.slots.staging.get l ≠ none →
          SameBut [.slots, .port l] s t ∧ AnswersWith l tag .stageDrop .ok .none s t
          ∧ t.slots = { s.slots with staging := s.slots.staging.set l none })

/-- STAGE-REGION's checks, field by field in the order of the field numbers, and the append. -/
def Obligations.StageRegionChecksThenAppends : Prop :=
  ∀ (l : Link) (tag : Byte) (r : RegionRecord) (s : State), SlotFree l s →
    ∃ t, exec (.stageRegion l tag r) s = .next t
      ∧ (s.slots.staging.get l = none → RefusedWith l tag .stageRegion .notOpen .none s t)
      ∧ ∀ st, s.slots.staging.get l = some st →
        (∀ n, FirstFailing (fieldPasses r) 11 n → RefusedWith l tag .stageRegion .badParam (.field n) s t)
        ∧ (AllPass (fieldPasses r) 11 → 8 ≤ st.records.length →
            RefusedWith l tag .stageRegion .listFull .none s t)
        ∧ (AllPass (fieldPasses r) 11 → st.records.length < 8 →
            SameBut [.slots, .port l] s t
            ∧ AnswersWith l tag .stageRegion .ok (.count (st.records.length + 1)) s t
            ∧ t.slots = { s.slots with
                staging := s.slots.staging.set l (some { st with records := st.records ++ [regionNamed r] }) })

/-- STAGE-COMMIT's six checks in order with what each refusal returns, and the write of the slot. -/
def Obligations.StageCommitChecksThenWritesSlot : Prop :=
  ∀ (l : Link) (tag : Byte) (s : State), SlotFree l s →
    ∃ t, exec (.stageCommit l tag) s = .next t
      ∧ (s.slots.staging.get l = none → RefusedWith l tag .stageCommit .notOpen .none s t)
      ∧ ∀ st, s.slots.staging.get l = some st →
        (slotLocked s.slots st.slot = true → RefusedWith l tag .stageCommit .locked (.slotNumber st.slot) s t)
        ∧ (slotLocked s.slots st.slot = false →
          (slotUse s.engine st.slot ≠ .none →
            RefusedWith l tag .stageCommit .inUse (.slotUse (slotUse s.engine st.slot)) s t)
          ∧ (slotUse s.engine st.slot = .none →
            (∀ i j, FirstPairAt SharesPixel st.records i j →
              RefusedWith l tag .stageCommit .overlap (.indexPair i j) s t)
            ∧ ((∀ i j, ¬ PairAt SharesPixel st.records i j) →
              (∀ i j, FirstPairAt (fun x y => x.tag = y.tag) st.records i j →
                RefusedWith l tag .stageCommit .dupTag (.indexPair i j) s t)
              ∧ ((∀ i j, ¬ PairAt (fun x y => x.tag = y.tag) st.records i j) →
                (1536 < layoutNeed st.records →
                  RefusedWith l tag .stageCommit .storeFull (.need (layoutNeed st.records)) s t)
                ∧ (layoutNeed st.records ≤ 1536 →
                  SameBut [.slots, .port l] s t
                  ∧ ∃ rs, rs.Perm st.records ∧ SortedByPlace rs
                    ∧ t.slots = { s.slots with
                        slots := s.slots.slots.set st.slot.val
                          { generation := (s.slots.slots.get st.slot).generation + 1, backdrop := st.backdrop,
                            regions := rs }
                        staging := s.slots.staging.set l none }
                    ∧ AnswersWith l tag .stageCommit .ok
                        (.committed st.slot ((s.slots.slots.get st.slot).generation + 1) rs.length) s t)))))

/-- SLOTS-OPEN, SLOTS-CLOSE and SLOTS-FREEZE: refused with LOCKED while freeze is set; otherwise the range given, the
range 0 to 7 with the outside flag set, or the freeze, with the new range and freeze state in the response. The flag
byte's undefined values are refused with BAD_PARAM (R169). A PROTECT pulse releases freeze and locks every slot. A slot
is locked outside the range while the outside flag is clear, and within it while the flag is set. -/
def Obligations.RangeCommandsAndProtect : Prop :=
  (∀ (x : SlotTable) (n : SlotNo),
    (x.outside = false → (slotLocked x n = true ↔ n < x.low ∨ x.high < n))
    ∧ (x.outside = true → (slotLocked x n = true ↔ x.low ≤ n ∧ n ≤ x.high)))
  ∧ (∀ (l : Link) (tag low high outside : Byte) (s : State), SlotFree l s →
    ∃ t, exec (.slotsOpen l tag low high outside) s = .next t
      ∧ (s.slots.freeze = true → RefusedWith l tag .slotsOpen .locked .none s t)
      ∧ (s.slots.freeze = false →
          (7 < low.toNat ∨ 7 < high.toNat ∨ high.toNat < low.toNat ∨ 1 < outside.toNat) →
          RefusedWith l tag .slotsOpen .badParam .none s t)
      ∧ ∀ lo hi : SlotNo, s.slots.freeze = false → lo.val = low.toNat → hi.val = high.toNat → lo ≤ hi →
          outside.toNat ≤ 1 →
          SameBut [.slots, .port l] s t
          ∧ t.slots = { s.slots with low := lo, high := hi, outside := decide (outside.toNat = 1) }
          ∧ AnswersWith l tag .slotsOpen .ok (.range lo hi (decide (outside.toNat = 1)) false) s t)
  ∧ (∀ (l : Link) (tag : Byte) (s : State), SlotFree l s →
    ∃ t, exec (.slotsClose l tag) s = .next t
      ∧ (s.slots.freeze = true → RefusedWith l tag .slotsClose .locked .none s t)
      ∧ (s.slots.freeze = false → SameBut [.slots, .port l] s t
          ∧ t.slots = { s.slots with low := 0, high := 7, outside := true }
          ∧ (∀ n, slotLocked t.slots n = true)
          ∧ AnswersWith l tag .slotsClose .ok (.range 0 7 true false) s t))
  ∧ (∀ (l : Link) (tag : Byte) (s : State), SlotFree l s →
    ∃ t, exec (.slotsFreeze l tag) s = .next t
      ∧ (s.slots.freeze = true → RefusedWith l tag .slotsFreeze .locked .none s t)
      ∧ (s.slots.freeze = false → SameBut [.slots, .port l] s t ∧ t.slots = { s.slots with freeze := true }
          ∧ AnswersWith l tag .slotsFreeze .ok (.range s.slots.low s.slots.high s.slots.outside true) s t))
  ∧ (∀ s : State, ∃ t, exec .protectPulse s = .next t ∧ SameBut [.slots] s t
      ∧ (s.slots.freeze = true → t.slots = { s.slots with low := 0, high := 7, outside := true, freeze := false })
      ∧ (s.slots.freeze = false → t = s))

/-- The commands that read and change nothing: SLOT-READ, POSTURE-READ and REGION-STATUS answer with the state as it
stands, and their link's port alone changes. The store summary gives the blocks held and free, the number of free gaps,
and the longest gap, of equal ones the lowest. That a tag's active record comes before its pending one in a REGION-STATUS
is the model's choice (log 15). -/
def Obligations.ReadCommandsAnswerFromState : Prop :=
  (∀ e : Engine, RunsOk e →
    let runs := e.records.flatMap recordRuns
    let x := storeSummary e.records
    x.held = (runs.map (·.count)).sum ∧ x.held + x.free = 1536
    ∧ ∃ gaps : List (Nat × Nat), gaps.Pairwise (fun g h => g.1 + g.2 < h.1) ∧ (∀ g, g ∈ gaps ↔ FreeGap runs g)
      ∧ x.gaps = gaps.length ∧ (x.longest = none ↔ gaps = [])
      ∧ ∀ g, x.longest = some g → g ∈ gaps ∧ ∀ h ∈ gaps, h.2 < g.2 ∨ (h.2 = g.2 ∧ g.1 ≤ h.1))
  ∧ (∀ (l : Link) (tag slot index : Byte) (s : State), SlotFree l s →
    ∃ t, exec (.slotRead l tag slot index) s = .next t ∧ SameBut [.port l] s t
      ∧ ((7 < slot.toNat ∨ 7 < index.toNat) → AnswersWith l tag .slotRead .badParam .none s t)
      ∧ ∀ n : SlotNo, n.val = slot.toNat → index.toNat ≤ 7 →
        AnswersWith l tag .slotRead .ok
          (.slotRead
            { backdrop := (s.slots.slots.get n).backdrop, generation := (s.slots.slots.get n).generation,
              regionCount := (s.slots.slots.get n).regions.length,
              record := (s.slots.slots.get n).regions[index.toNat]?, use := slotUse s.engine n,
              locked := slotLocked s.slots n, low := s.slots.low, high := s.slots.high, outside := s.slots.outside,
              freeze := s.slots.freeze }) s t)
  ∧ (∀ (l : Link) (tag : Byte) (s : State), SlotFree l s →
    ∃ t, exec (.postureRead l tag) s = .next t ∧ SameBut [.port l] s t
      ∧ AnswersWith l tag .postureRead .ok
          (.postureRead
            { posture := s.posture.posture, face := s.posture.face, last := s.posture.last,
              dwellCount := s.posture.dwellCount, counting := s.posture.counting, sensor := s.posture.sensor,
              desired := desiredSlot s.posture, stalled := s.posture.stalled, bindings := s.posture.bindings,
              settings := s.posture.settings, rejects := s.posture.rejects, touchMalformed := s.touch.malformed })
          s t)
  ∧ (∀ (l : Link) (tag region : Byte) (s : State), SlotFree l s →
    ∃ t, exec (.regionStatus l tag region) s = .next t ∧ SameBut [.port l] s t
      ∧ ((region.toNat = 0 ∨ 15 < region.toNat) → AnswersWith l tag .regionStatus .badParam .none s t)
      ∧ (1 ≤ region.toNat → region.toNat ≤ 15 →
          ((∀ r ∈ s.engine.records, r.region.tag ≠ region.toNat) →
            AnswersWith l tag .regionStatus .noRegion (.noRegion (storeSummary s.engine.records)) s t)
          ∧ ((∃ r ∈ s.engine.records, r.region.tag = region.toNat) →
            AnswersWith l tag .regionStatus .ok
              (.regionStatus
                ((s.engine.records.filter (fun r => r.region.tag = region.toNat)).map (fun r =>
                  { membership := r.membership, content := r.region.content, owner := r.region.owner, gate := r.gate,
                    entryEpoch := r.entryEpoch, buffers := r.buffers }))
                (storeSummary s.engine.records)) s t)))

/-- A slot that holds the active or the pending layout is not rewritten while it holds it: no command but a power-on
reset writes it. BAD_PACKET is left out here: its bytes may bring several packets, each a command of its own. -/
def Obligations.SlotInUseIsNotRewritten : Prop :=
  ∀ (c : Instr) (s t : State) (n : SlotNo), exec c s = .next t → c ≠ .powerOnReset → isBytes c = false →
    slotUse s.engine n ≠ .none → t.slots.slots.get n = s.slots.slots.get n

/-! ## The posture monitor -/

/-- The HINGE edges: a falling edge ends the high time once, the first rising edge after a reset starts a measurement
and forms no sample, and a later one whose sample is not acceptable adds 1 to the reject count and has no other effect
but the start of the next period. Counts stop at 65535 ticks; with no falling edge the high time is the period. The
operand is the count of ticks since the earlier rising edge (log 2); that a second falling edge in one period changes
nothing is the model's choice (log 21). -/
def Obligations.HingeEdgesMeasureAndReject : Prop :=
  ∀ (ticks : Nat) (s : State) (order : LinkSet), TakesPackets s →
    (∃ t, exec (.hingeFall ticks) s = .next t ∧ SameBut [.posture] s t
      ∧ (s.posture.measurement = some { high := none } →
          t.posture = { s.posture with measurement := some { high := some (min ticks 65535) } })
      ∧ (s.posture.measurement ≠ some { high := none } → t.posture = s.posture))
    ∧ ∃ t, exec (.hingeRise ticks order) s = .next t
      ∧ (s.posture.measurement = none →
          SameBut [.posture] s t ∧ t.posture = { s.posture with measurement := some { high := none } })
      ∧ ∀ m, s.posture.measurement = some m →
        let p := min ticks 65535
        let w := m.high.getD p
        ¬ (400 ≤ p ∧ p ≤ 4000 ∧ 1 ≤ w ∧ w ≤ p - 1) →
          SameBut [.posture] s t
          ∧ t.posture = { s.posture with measurement := some { high := none }, rejects := s.posture.rejects + 1 }

/-- An accepted sample, stage by stage: the raw angle, the hinge value, the window, the filtered value, the latch that
keeps the first sample, the candidate's dwell, and the sensor state with its timeout. `cand` is the candidate of the
new filtered value (its table has a statement of its own). Without a posture change no other block changes, but for the
SENSOR (restored) notices after a loss. -/
def Obligations.AcceptedSampleUpdatesMonitor : Prop :=
  ∀ (ticks : Nat) (s : State) (order : LinkSet) (m : Measurement), TakesPackets s →
    s.posture.measurement = some m →
    let p := min ticks 65535
    let w := m.high.getD p
    400 ≤ p → p ≤ 4000 → 1 ≤ w → w ≤ p - 1 →
    let a := (3600 * w + p / 2) / p
    let d := (a + 3600 - s.posture.settings.zero) % 3600
    let h := if d ≤ 1800 then d else if d ≤ 2000 then 1800 else 0
    let win : Window := match s.posture.window with
      | none => ⟨h, h, h, h⟩
      | some v => ⟨v.h2, v.h3, v.h4, h⟩
    let f := (win.h1 + win.h2 + win.h3 + win.h4 + 2) / 4
    let cand := candidate s.posture.posture s.posture.settings f
    let count := if cand = s.posture.posture then 0
      else if s.posture.counting = some cand then s.posture.dwellCount + 1 else 1
    let change := cand ≠ s.posture.posture ∧ s.posture.settings.dwell ≤ count
    ∃ t, exec (.hingeRise ticks order) s = .next t
      ∧ t.posture.measurement = some { high := none } ∧ t.posture.rejects = s.posture.rejects
      ∧ t.posture.window = some win ∧ t.posture.last = some { hinge := h, filtered := f }
      ∧ (s.posture.snapshot = none →
          t.posture.snapshot = some { period := p, high := w, angle := a, hinge := h, filtered := f })
      ∧ (s.posture.snapshot ≠ none → t.posture.snapshot = s.posture.snapshot)
      ∧ t.posture.sensor = .ok ∧ t.posture.running = some s.posture.settings.timeout
      ∧ t.posture.face = s.posture.face ∧ t.posture.bindings = s.posture.bindings
      ∧ t.posture.settings = s.posture.settings
      ∧ (change → t.posture.posture = cand ∧ t.posture.dwellCount = 0 ∧ t.posture.counting = none)
      ∧ (¬ change → t.posture.posture = s.posture.posture ∧ t.posture.dwellCount = count
          ∧ t.posture.counting = (if cand = s.posture.posture then none else some cand)
          ∧ t.posture.stalled = s.posture.stalled
          ∧ SameBut [.posture, .port .a, .port .b] s t
          ∧ (s.posture.sensor ≠ .lost → SameBut [.posture] s t)
          ∧ (s.posture.sensor = .lost →
              ∀ l, t.port l = handed (.sensor true s.posture.posture) (s.port l)))

/-- A posture change. HINGE_RISE with an accepted sample that completes the dwell brings one, on the state `u` that the
sample has brought up to date, and then the sensor timeout restarts. At a posture change, follow evaluation runs with
cause POSTURE; a POSTURE notice with its outcome is handed to both links; then each port is told, with `u` the state in
which the evaluation has ended: a WAIT for POSTURE is answered, and an armed AT_POSTURE abort acts on what the evaluation
has left. It ends a WAIT, answered ABORTED unless quiet; against the completion of a WAIT for POSTURE the order is open
and the operand `order` says which comes first (log 6). It withdraws a SWITCH's transition, told to both links behind the
POSTURE notice. A SWITCH that the evaluation superseded has left its slot and has no armed abort. -/
def Obligations.PostureChangeTellsBothLinks : Prop :=
  (∀ (ticks : Nat) (s : State) (order : LinkSet) (m : Measurement), TakesPackets s →
    s.posture.measurement = some m →
    let p := min ticks 65535
    let w := m.high.getD p
    400 ≤ p → p ≤ 4000 → 1 ≤ w → w ≤ p - 1 →
    let seen := recordSample p w { s.posture with measurement := some { high := none }, sensor := .ok }
    let cand := candidateNow seen
    cand ≠ s.posture.posture →
    s.posture.settings.dwell ≤ (if s.posture.counting = some cand then s.posture.dwellCount + 1 else 1) →
    ∃ u : State, SameBut [.posture, .port .a, .port .b] s u
      ∧ u.posture = { seen with posture := cand, dwellCount := 0, counting := none }
      ∧ (∀ l, u.port l =
          if s.posture.sensor = .lost then handed (.sensor true s.posture.posture) (s.port l) else s.port l)
      ∧ let t := postureChange order u
        exec (.hingeRise ticks order) s
          = .next { t with posture := { t.posture with running := some s.posture.settings.timeout } })
  ∧ ∀ (s : State) (order : LinkSet),
    let r := followEvaluation .posture s
    let u := r.1
    let t := postureChange order s
    let told (l : Link) : Port := handed
      (.posture
        { reason := .posture, posture := u.posture.posture, face := u.posture.face,
          filtered := u.posture.last.map (·.filtered), desired := desiredSlot u.posture, outcome := r.2,
          stalled := u.posture.stalled }) (u.port l)
    let waited (tag : Byte) : Response :=
      { tag := tag, code := 0x61, status := .ok
        results := .postureWaited u.posture.posture u.posture.face (u.posture.last.map (·.filtered)) }
    let notArmed (l : Link) : Prop := ∀ a, (u.port l).armed = some a → a.condition ≠ .atPosture
    (notArmed .a → notArmed .b → ∀ l : Link,
      SameBut [.port .a, .port .b] u t
      ∧ ((∀ tag, (u.port l).slot ≠ some (.waitPosture tag)) → t.port l = told l)
      ∧ ∀ tag, (u.port l).slot = some (.waitPosture tag) →
          t.port l = { told l with
            slot := none, armed := none, responses := (u.port l).responses ++ [waited tag] })
    ∧ ∀ (l : Link) (quiet : Bool), (u.port l).armed = some { condition := .atPosture, quiet := quiet } →
      notArmed l.other →
      (∀ tag, (u.port l).slot = some (.waitPosture tag) → order.get l = false →
        SameBut [.port .a, .port .b] u t
        ∧ t.port l = { told l with
            slot := none, armed := none, responses := (u.port l).responses ++ [waited tag] })
      ∧ (∀ q, (u.port l).slot = some q → (∀ tag, q ≠ .switch tag) →
          (order.get l = true ∨ ∀ tag, q ≠ .waitPosture tag) →
          SameBut [.port .a, .port .b] u t
          ∧ t.port l = { told l with
              slot := none, armed := none
              responses := (u.port l).responses ++ (if quiet = true then []
                else [{ tag := q.tag, code := 0x61, status := .aborted, results := .none }]) })
      ∧ ∀ tag p, (u.port l).slot = some (.switch tag) → u.engine.pending = some p → p.requester = some l →
          let gone : Notice := .withdrawn p.epoch p.slot .aborted
          SameBut [.engine, .port .a, .port .b] u t
          ∧ t.engine = { u.engine with
              pending := none
              records := (activeRecords u.engine).map (fun r =>
                if r.membership = .both then { r with membership := .active } else r) }
          ∧ t.port l = { handed gone (told l) with
              slot := none, armed := none
              responses := (u.port l).responses ++ (if quiet = true then []
                else [{ tag := tag, code := 0x20, status := .aborted, results := .epoch p.epoch }]) }
          ∧ ((∀ x, (u.port l.other).slot ≠ some (.waitPosture x)) →
              t.port l.other = handed gone (told l.other))
          ∧ ∀ x, (u.port l.other).slot = some (.waitPosture x) →
              t.port l.other = { handed gone (told l.other) with
                slot := none, armed := none, responses := (u.port l.other).responses ++ [waited x] }

/-- The candidate table: with thresholds in their order the candidate is the one the table gives, never UNKNOWN. -/
def Obligations.CandidateFollowsTable : Prop :=
  ∀ (h : HingeSettings) (f : Nat), h.foldEnter < h.foldExit → h.foldExit < h.flatExit → h.flatExit < h.flatEnter →
    (∀ p, p = Posture.unknown ∨ p = Posture.part →
      (f ≤ h.foldEnter → candidate p h f = .folded) ∧ (h.flatEnter ≤ f → candidate p h f = .flat)
      ∧ (h.foldEnter < f → f < h.flatEnter → candidate p h f = .part))
    ∧ (f < h.foldExit → candidate .folded h f = .folded) ∧ (h.flatEnter ≤ f → candidate .folded h f = .flat)
    ∧ (h.foldExit ≤ f → f < h.flatEnter → candidate .folded h f = .part)
    ∧ (f ≤ h.foldEnter → candidate .flat h f = .folded) ∧ (h.flatExit < f → candidate .flat h f = .flat)
    ∧ (h.foldEnter < f → f ≤ h.flatExit → candidate .flat h f = .part)
    ∧ ∀ p, candidate p h f ≠ .unknown

/-- The expiry of the sensor timeout while the sensor is OK: LOST, the posture held, the dwell cleared, the window
emptied, a SENSOR (lost) notice for both links. That SENSOR_TIMEOUT has no effect in any other sensor state, in which
no timeout runs and the spec says it does not occur, is the model's choice (log 20). HINGE-SNAPSHOT returns the
latched record and empties the latch; an empty latch gives NO_SAMPLE and nothing changes. -/
def Obligations.SensorLossAndSnapshotLatch : Prop :=
  (∀ s : State, TakesPackets s → ∃ t, exec .sensorTimeout s = .next t
    ∧ (s.posture.sensor = .ok →
        SameBut [.posture, .port .a, .port .b] s t
        ∧ t.posture =
            { s.posture with sensor := .lost, running := none, dwellCount := 0, counting := none, window := none }
        ∧ ∀ l, t.port l = handed (.sensor false s.posture.posture) (s.port l))
    ∧ (s.posture.sensor ≠ .ok → t = s))
  ∧ ∀ (l : Link) (tag : Byte) (s : State), SlotFree l s →
    ∃ t, exec (.hingeSnapshot l tag) s = .next t
      ∧ (s.posture.snapshot = none → RefusedWith l tag .hingeSnapshot .noSample .none s t)
      ∧ ∀ r, s.posture.snapshot = some r →
          SameBut [.posture, .port l] s t ∧ t.posture = { s.posture with snapshot := none }
          ∧ AnswersWith l tag .hingeSnapshot .ok (.snapshot r) s t

/-- SET-HINGE: its seven checks in order, and what a taken one writes: all seven settings, the dwell cleared, the window
emptied when ZERO changes. -/
def Obligations.SetHingeChecksSevenFields : Prop :=
  ∀ (l : Link) (tag : Byte) (h : HingeFields) (s : State), SlotFree l s →
    ∃ t, exec (.setHinge l tag h) s = .next t
      ∧ (∀ n, FirstFailing (settingPasses h) 7 n → RefusedWith l tag .setHinge .badParam (.field n) s t)
      ∧ (AllPass (settingPasses h) 7 →
          let now : HingeSettings :=
            ⟨h.foldEnter.toNat, h.foldExit.toNat, h.flatExit.toNat, h.flatEnter.toNat, h.dwell.toNat, h.zero.toNat,
              h.timeout.toNat⟩
          SameBut [.posture, .port l] s t ∧ AnswersWith l tag .setHinge .ok (.hinge now) s t
          ∧ (now.zero = s.posture.settings.zero →
              t.posture = { s.posture with settings := now, dwellCount := 0, counting := none })
          ∧ (now.zero ≠ s.posture.settings.zero →
              t.posture = { s.posture with settings := now, dwellCount := 0, counting := none, window := none }))

/-- SET-FACE and BIND: an undefined value is refused with the number of its field where the rule gives one; a taken
one writes the face or the entry, runs follow evaluation with its cause on the state so changed, hands a POSTURE
notice with the outcome to both links, and answers OK with what it wrote and the outcome. That a BIND with several bad
fields names the first of posture, face and slot is the model's choice (log 28). -/
def Obligations.SetFaceAndBindRunFollowEvaluation : Prop :=
  (∀ (l : Link) (tag face : Byte) (s : State), SlotFree l s →
    ∃ t, exec (.setFace l tag face) s = .next t
      ∧ (1 < face.toNat → RefusedWith l tag .setFace .badParam .none s t)
      ∧ ∀ f : Face, (face = 0 ∧ f = .front) ∨ (face = 1 ∧ f = .rear) →
          let r := followEvaluation .face (modPosture (fun m => { m with face := f }) (arrive l s))
          t = answer l tag .setFace .ok (.face f r.2) (notifyBoth (postureNotice .face r.2 r.1) r.1))
  ∧ (∀ (l : Link) (tag posture face slot : Byte) (s : State), SlotFree l s →
    ∃ t, exec (.bind l tag posture face slot) s = .next t
      ∧ ((posture.toNat = 0 ∨ 3 < posture.toNat) → RefusedWith l tag .bind .badParam (.field 1) s t)
      ∧ (1 ≤ posture.toNat → posture.toNat ≤ 3 → 1 < face.toNat →
          RefusedWith l tag .bind .badParam (.field 2) s t)
      ∧ (1 ≤ posture.toNat → posture.toNat ≤ 3 → face.toNat ≤ 1 → 8 ≤ slot.toNat → slot.toNat ≠ 0xFF →
          RefusedWith l tag .bind .badParam (.field 3) s t)
      ∧ ∀ (p : Posture) (f : Face) (x : Binding),
          (posture = 1 ∧ p = .folded) ∨ (posture = 2 ∧ p = .part) ∨ (posture = 3 ∧ p = .flat) →
          (face = 0 ∧ f = .front) ∨ (face = 1 ∧ f = .rear) →
          (slot = 0xFF ∧ x = .hold) ∨ (∃ n : SlotNo, n.val = slot.toNat ∧ x = .slot n) →
          ∃ b : Bindings, bindingFor b p f = some x
            ∧ (∀ p' f', (p', f') ≠ (p, f) → bindingFor b p' f' = bindingFor s.posture.bindings p' f')
            ∧ let r := followEvaluation .bind (modPosture (fun m => { m with bindings := b }) (arrive l s))
              t = answer l tag .bind .ok (.binding p f x r.2) (notifyBoth (postureNotice .bind r.2 r.1) r.1))

/-- Follow evaluation and the request it makes: no request while the posture is UNKNOWN, the binding is HOLD or the
desired slot is the current target; otherwise a follow request, which in STEADY is handled as a request for the slot, and
while a transition is pending withdraws it first; an outcome of STORE_FULL sets the stalled flag and no other clears or
sets it. -/
def Obligations.FollowEvaluationMakesRequest : Prop :=
  ∀ (cause : Cause) (s : State),
    (s.posture.posture = .unknown → followEvaluation cause s = (s, .none))
    ∧ (bindingFor s.posture.bindings s.posture.posture s.posture.face = some .hold →
        followEvaluation cause s = (s, .hold))
    ∧ ∀ n : SlotNo, bindingFor s.posture.bindings s.posture.posture s.posture.face = some (.slot n) →
        (s.engine.pending = none → s.engine.active.slot = some n → followEvaluation cause s = (s, .none))
        ∧ (∀ p, s.engine.pending = some p → p.slot = n → followEvaluation cause s = (s, .none))
        ∧ (s.engine.pending = none → s.engine.active.slot ≠ some n →
            (∀ u, steadyRequest n cause none s = (u, .announced) → followEvaluation cause s = (u, .announced))
            ∧ (∀ u, steadyRequest n cause none s = (u, .exhausted) → followEvaluation cause s = (u, .exhausted))
            ∧ (∀ u need, steadyRequest n cause none s = (u, .storeFull need) →
                followEvaluation cause s = ({ u with posture := { u.posture with stalled := true } }, .storeFull)))
        ∧ (∀ p, s.engine.pending = some p → p.slot ≠ n →
            let v := withdraw .superseded false s
            (s.engine.active.slot = some n → followEvaluation cause s = (v, .none))
            ∧ (s.engine.active.slot ≠ some n →
              (∀ u, steadyRequest n cause none v = (u, .announced) → followEvaluation cause s = (u, .announced))
              ∧ (∀ u, steadyRequest n cause none v = (u, .exhausted) → followEvaluation cause s = (u, .exhausted))
              ∧ (∀ u need, steadyRequest n cause none v = (u, .storeFull need) →
                  followEvaluation cause s
                    = ({ u with posture := { u.posture with stalled := true } }, .storeFull))))

/-! ## The transition engine -/

/-- A request taken in STEADY: refused when the epoch counter stands at its limit, refused with the request's total need
when a buffer cannot be placed, and otherwise announced: the next epoch, the slot's content as the pending layout, a new
CLOSED record for every region that is not carried, the ack set of the links that are not OFFLINE and own a region, the
window loaded, an ANNOUNCE notice handed to each link. -/
def Obligations.RequestAnnouncesNextEpoch : Prop :=
  ∀ (n : SlotNo) (cause : Cause) (who : Option Link) (s : State),
    let layout := s.slots.slots.get n
    let new := layout.regions.filter (fun g => !(activeRecords s.engine).any (fun r => carries r.region g))
    (s.engine.epochCounter = 0xFFFFFFFF → steadyRequest n cause who s = (s, .exhausted))
    ∧ (s.engine.epochCounter ≠ 0xFFFFFFFF →
      (allocate (storeMap s.engine.records) new = none →
        steadyRequest n cause who s = (s, .storeFull (layoutNeed new)))
      ∧ ∀ placed, allocate (storeMap s.engine.records) new = some placed →
        ∃ t p, steadyRequest n cause who s = (t, .announced) ∧ SameBut [.engine, .port .a, .port .b] s t
          ∧ t.engine.pending = some p ∧ t.engine.epochCounter = s.engine.epochCounter + 1
          ∧ t.engine.active = s.engine.active ∧ t.engine.activeEpoch = s.engine.activeEpoch
          ∧ t.engine.ackFrames = s.engine.ackFrames
          ∧ p.slot = n ∧ p.generation = layout.generation ∧ p.backdrop = layout.backdrop
          ∧ p.regions = layout.regions ∧ p.epoch = s.engine.epochCounter + 1 ∧ p.cause = cause
          ∧ p.requester = who ∧ p.acked = ⟨false, false⟩ ∧ p.window = s.engine.ackFrames
          ∧ (∀ l, p.ackSet.get l = true ↔
              ((s.port l).state ≠ .offline ∧ ∃ g ∈ layout.regions, g.owner = some l))
          ∧ (p.armed = true ↔ p.ackSet = ⟨false, false⟩)
          ∧ t.engine.records =
              s.engine.records.map (fun r => if layout.regions.any (carries r.region)
                then { r with membership := .both } else r)
              ++ placed.map (fun x =>
                { region := x.1, membership := .pending, gate := .closed, entryEpoch := p.epoch, buffers := x.2 })
          ∧ ∀ l, t.port l = handed
              (.announce
                { epoch := p.epoch, slot := n, generation := layout.generation, cause := cause,
                  posture := s.posture.posture, face := s.posture.face, ownedTags := ownedTags l layout.regions,
                  deadline := s.scan.frame + BitVec.ofNat 32 s.engine.ackFrames, ackExpected := p.ackSet.get l })
              (s.port l))

/-- SWITCH's checks in order (section 3.2, with the need of a refused allocation from section 4.2), and the command held
in its slot once its transition is announced (section 3.6). -/
def Obligations.SwitchFollowsItsChecks : Prop :=
  ∀ (l : Link) (tag slot : Byte) (s : State), SlotFree l s →
    ∃ t, exec (.switch l tag slot) s = .next t
      ∧ (8 ≤ slot.toNat → RefusedWith l tag .switch .badParam .none s t)
      ∧ ∀ n : SlotNo, n.val = slot.toNat →
        (s.engine.pending ≠ none → RefusedWith l tag .switch .transitionPending .none s t)
        ∧ (s.engine.pending = none → s.engine.active.slot = some n →
            RefusedWith l tag .switch .ok (.switched s.engine.activeEpoch n s.scan.frame) s t)
        ∧ (s.engine.pending = none → s.engine.active.slot ≠ some n →
            ∀ u, (steadyRequest n (.switchBy l) (some l) (arrive l s) = (u, .exhausted) →
                RefusedWith l tag .switch .epochExhausted .none s t)
              ∧ (∀ need, steadyRequest n (.switchBy l) (some l) (arrive l s) = (u, .storeFull need) →
                RefusedWith l tag .switch .storeFull (.need need) s t)
              ∧ (steadyRequest n (.switchBy l) (some l) (arrive l s) = (u, .announced) →
                SameBut [.port l] u t ∧ t.port l = { u.port l with slot := some (.switch tag) }))

/-- ACK-EPOCH, whatever the command slot holds: an acknowledgement of the pending epoch by a link of the ack set makes it
a member, and the state ARMED when the set is complete; by another link it has no effect; any other epoch is answered
BAD_EPOCH. -/
def Obligations.AckEpochJoinsAcknowledgedSet : Prop :=
  ∀ (l : Link) (tag : Byte) (epoch : Word) (s : State), TakesCommand l s →
    ∃ t, exec (.ackEpoch l tag epoch) s = .next t
      ∧ (s.engine.pending = none →
          RefusedWith l tag .ackEpoch .badEpoch (.epochs s.engine.activeEpoch none) s t)
      ∧ ∀ p, s.engine.pending = some p →
        (epoch ≠ p.epoch →
          RefusedWith l tag .ackEpoch .badEpoch (.epochs s.engine.activeEpoch (some p.epoch)) s t)
        ∧ (epoch = p.epoch → p.ackSet.get l = false →
          RefusedWith l tag .ackEpoch .ok (.acked epoch (transitionState s.engine)) s t)
        ∧ (epoch = p.epoch → p.ackSet.get l = true →
          SameBut [.engine, .port l] s t
          ∧ (∃ q, t.engine = { s.engine with pending := some q }
              ∧ q = { p with acked := p.acked.set l true, armed := q.armed }
              ∧ (q.armed = true ↔ p.armed = true ∨ p.acked.set l true = p.ackSet))
          ∧ AnswersWith l tag .ackEpoch .ok (.acked epoch (transitionState t.engine)) s t)

/-- ABORT: an undefined condition is BAD_PARAM; with the slot empty it answers IDLE; AT_FRAME and AT_POSTURE arm it,
replacing an armed one; NOW ends a WAIT at once, answered ABORTED unless quiet, ahead of the ABORT's own DONE; NOW on a
SWITCH withdraws its transition, with a WITHDRAWN notice for each link. The quiet byte is set for any value but 0. -/
def Obligations.AbortActsOnRunningCommand : Prop :=
  ∀ (l : Link) (tag condition quiet : Byte) (s : State), TakesCommand l s →
    ∃ t, exec (.abort l tag condition quiet) s = .next t
      ∧ (2 < condition.toNat → RefusedWith l tag .abort .badParam .none s t)
      ∧ (condition.toNat ≤ 2 → (s.port l).slot = none → RefusedWith l tag .abort .idle .none s t)
      ∧ (∀ r c, (s.port l).slot = some r → (condition = 1 ∧ c = .atFrame) ∨ (condition = 2 ∧ c = .atPosture) →
          SameBut [.port l] s t
          ∧ t.port l = { (arrive l s).port l with
              armed := some { condition := c, quiet := decide (quiet ≠ 0) }
              responses := (s.port l).responses
                ++ [{ tag := tag, code := 0x62, status := .armed, results := .none }] })
      ∧ (∀ r, (s.port l).slot = some r → (∀ x, r ≠ .switch x) → condition = 0 →
          SameBut [.port l] s t
          ∧ t.port l = { (arrive l s).port l with
              slot := none, armed := none
              responses := (s.port l).responses
                ++ (if quiet = 0 then [{ tag := r.tag, code := 0x61, status := .aborted, results := .none }] else [])
                ++ [{ tag := tag, code := 0x62, status := .done, results := .none }] })
      ∧ (∀ x p, (s.port l).slot = some (.switch x) → condition = 0 → s.engine.pending = some p →
          p.requester = some l →
          SameBut [.engine, .port .a, .port .b] s t
          ∧ t.engine = { s.engine with
              pending := none
              records := (activeRecords s.engine).map (fun r =>
                if r.membership = .both then { r with membership := .active } else r) }
          ∧ t.port l.other = handed (.withdrawn p.epoch p.slot .aborted) (s.port l.other)
          ∧ t.port l = { handed (.withdrawn p.epoch p.slot .aborted) ((arrive l s).port l) with
              slot := none, armed := none
              responses := (s.port l).responses
                ++ (if quiet = 0 then [{ tag := x, code := 0x20, status := .aborted, results := .epoch p.epoch }]
                    else [])
                ++ [{ tag := tag, code := 0x62, status := .done, results := .none }] })

/-- SET-ACK-WINDOW, SET-RATE, SET-QUIET and SET-TOUCH-CAL: a value in range is written and answered, with the value it
replaced where the rule gives it; any other is refused. WAIT: an undefined event, or FRAME with 0 frames, is refused;
otherwise the command holds the slot, with no response yet. -/
def Obligations.SettingAndWaitCommandsCheckRange : Prop :=
  (∀ (l : Link) (tag n : Byte) (s : State), SlotFree l s →
    ∃ t, exec (.setAckWindow l tag n) s = .next t
      ∧ ((n.toNat = 0 ∨ 15 < n.toNat) → RefusedWith l tag .setAckWindow .badParam .none s t)
      ∧ (1 ≤ n.toNat → n.toNat ≤ 15 → SameBut [.engine, .port l] s t
          ∧ t.engine = { s.engine with ackFrames := n.toNat }
          ∧ AnswersWith l tag .setAckWindow .ok (.ackWindow n.toNat s.engine.ackFrames) s t))
  ∧ (∀ (l : Link) (tag rate : Byte) (s : State), SlotFree l s →
    ∃ t, exec (.setRate l tag rate) s = .next t
      ∧ (rate.toNat ≠ 60 → rate.toNat ≠ 90 → rate.toNat ≠ 120 → RefusedWith l tag .setRate .badParam .none s t)
      ∧ ∀ r : Rate, (rate = 60 ∧ r = .hz60) ∨ (rate = 90 ∧ r = .hz90) ∨ (rate = 120 ∧ r = .hz120) →
          SameBut [.scan, .port l] s t ∧ t.scan = { s.scan with nextRate := r }
          ∧ AnswersWith l tag .setRate .ok (.rates s.scan.rate r) s t)
  ∧ (∀ (l : Link) (tag n : Byte) (s : State), SlotFree l s →
    ∃ t, exec (.setQuiet l tag n) s = .next t ∧ SameBut [.port l] s t
      ∧ (n.toNat = 0 → RefusedWith l tag .setQuiet .badParam .none s t)
      ∧ (1 ≤ n.toNat → t.port l = { (arrive l s).port l with
          quietFrames := n.toNat
          responses := (s.port l).responses
            ++ [{ tag := tag, code := 0x60, status := .ok,
                  results := .quietFrames n.toNat (s.port l).quietFrames }] }))
  ∧ (∀ (l : Link) (tag : Byte) (gx gy ox oy : Half) (s : State), SlotFree l s →
    ∃ t, exec (.setTouchCal l tag gx gy ox oy) s = .next t
      ∧ (∀ n, FirstFailing (calibrationPasses gx gy ox oy) 4 n →
          RefusedWith l tag .setTouchCal .badParam (.field n) s t)
      ∧ (AllPass (calibrationPasses gx gy ox oy) 4 →
          let now : Calibration := { gx := gx.toNat, gy := gy.toNat, ox := ox.toInt, oy := oy.toInt }
          SameBut [.touch, .port l] s t ∧ t.touch = { s.touch with calibration := now }
          ∧ AnswersWith l tag .setTouchCal .ok (.calibration now s.touch.calibration) s t))
  ∧ ∀ (l : Link) (tag event n : Byte) (s : State), SlotFree l s →
    ∃ t, exec (.wait l tag event n) s = .next t ∧ SameBut [.port l] s t
      ∧ ((2 < event.toNat ∨ (event.toNat = 0 ∧ n.toNat = 0)) → RefusedWith l tag .wait .badParam .none s t)
      ∧ (event.toNat = 0 → 1 ≤ n.toNat →
          t.port l = { (arrive l s).port l with slot := some (.waitFrame tag n.toNat) })
      ∧ (event.toNat = 1 → t.port l = { (arrive l s).port l with slot := some (.waitPosture tag) })
      ∧ (event.toNat = 2 → t.port l = { (arrive l s).port l with slot := some (.waitEpoch tag) })

/-- The switch, told to every block: the frame start makes it when the state is ARMED, with an empty late set, or when
the window runs out, with the links that have not acknowledged; the engine's state; a cleared stalled flag; the contacts
of regions that are not carried cancelled; for each link an ACTIVE notice, then its CANCEL notices in order of touch id;
the requesting SWITCH answered, or else a running WAIT for EPOCH. -/
def Obligations.SwitchTellsEveryBlock : Prop :=
  ∀ (s : State) (p : Pending), s.engine.pending = some p →
    (p.armed = true → engineFrame s = makeSwitch ⟨false, false⟩ s)
    ∧ (p.armed = false → p.window ≤ 1 →
        engineFrame s = makeSwitch ⟨p.ackSet.a && !p.acked.a, p.ackSet.b && !p.acked.b⟩ s)
    ∧ (p.armed = false → 1 < p.window → engineFrame s =
        { s with engine := { s.engine with pending := some { p with window := p.window - 1 } } })
    ∧ ∀ late : LinkSet,
      let t := makeSwitch late s
      let kept := (s.engine.records.filter (fun r => r.membership = .both)).map (·.region.tag)
      SameBut [.posture, .engine, .touch, .port .a, .port .b] s t
      ∧ t.engine = { s.engine with
          active := { slot := some p.slot, generation := p.generation, backdrop := p.backdrop }
          activeEpoch := p.epoch
          pending := none
          records := switchedRecords p.regions s.engine.records }
      ∧ t.posture = { s.posture with stalled := false }
      ∧ t.touch = { s.touch with contacts := t.touch.contacts }
      ∧ (∀ c : TouchId, t.touch.contacts.get c = contactAfterCancel kept (s.touch.contacts.get c))
      ∧ ∀ l : Link,
        let told := handedAll
          (.active p.epoch p.slot p.generation s.scan.frame late
            :: cancelsFor l .switch p.epoch kept s.touch.contacts) (s.port l)
        (∀ r, p.requester = some l → (s.port l).slot = some r →
          t.port l = { told with
            slot := none, armed := none
            responses := told.responses ++ [{ tag := r.tag, code := r.code, status := .ok,
                                              results := .switched p.epoch p.slot s.scan.frame }] })
        ∧ (∀ tag, p.requester ≠ some l → (s.port l).slot = some (.waitEpoch tag) →
          t.port l = { told with
            slot := none, armed := none
            responses := told.responses ++ [{ tag := tag, code := 0x61, status := .ok,
                                              results := .switched p.epoch p.slot s.scan.frame }] })
        ∧ (((s.port l).slot = none ∨ (p.requester ≠ some l ∧ ∀ tag, (s.port l).slot ≠ some (.waitEpoch tag))) →
          t.port l = told)

/-- The records at the switch: a carried record takes the new layout's region and keeps everything else; a new one keeps
its own and has its gate set, OPEN for a DOUBLE region that has flipped or a SINGLE one with a valid row, CLOSED for any
other; the old records that are not carried are gone. -/
def Obligations.SwitchKeepsCarriedRecords : Prop :=
  ∀ (s : State) (p : Pending), RecordsOk s → s.engine.pending = some p →
    let after := switchedRecords p.regions s.engine.records
    after.map (·.region) = p.regions
    ∧ (∀ r ∈ s.engine.records, r.membership = .both → ∃ new ∈ p.regions, carries r.region new = true
        ∧ { r with region := new, membership := .active } ∈ after)
    ∧ (∀ r ∈ s.engine.records, r.membership = .pending →
        { r with
          membership := .active
          gate := match r.region.content, r.buffers with
            | .double, some b => if b.flipped then .opened else .closed
            | .single, some b => if b.front.valid.count true = 0 then .closed else .opened
            | _, _ => .closed } ∈ after)
    ∧ ∀ q ∈ after, ∃ r ∈ s.engine.records, r.membership ≠ .active ∧ r.region.tag = q.region.tag
        ∧ q.entryEpoch = r.entryEpoch ∧ q.buffers = r.buffers

/-- A withdrawal: the records of the pending layout alone go with their runs, the carried ones return to the active
layout, the epoch counter keeps its value, each link is handed a WITHDRAWN notice, and the requesting SWITCH ends with
SUPERSEDED or ABORTED, or without a response when the abort is quiet. -/
def Obligations.WithdrawalEndsTransition : Prop :=
  ∀ (reason : WithdrawReason) (quiet : Bool) (s : State) (p : Pending), s.engine.pending = some p →
    let t := withdraw reason quiet s
    SameBut [.engine, .port .a, .port .b] s t
    ∧ t.engine = { s.engine with
        pending := none
        records := (activeRecords s.engine).map (fun r =>
          if r.membership = .both then { r with membership := .active } else r) }
    ∧ ∀ l : Link,
      let told := handed (.withdrawn p.epoch p.slot reason) (s.port l)
      ((p.requester ≠ some l ∨ (s.port l).slot = none ∧ quiet = false) → t.port l = told)
      ∧ (p.requester = some l → quiet = true → t.port l = { told with slot := none, armed := none })
      ∧ ∀ r, p.requester = some l → quiet = false → (s.port l).slot = some r →
          t.port l = { told with
            slot := none, armed := none
            responses := told.responses ++ [{ tag := r.tag, code := r.code
                                              status := if reason = .superseded then .superseded else .aborted
                                              results := .epoch p.epoch }] }

/-! ## Frame starts -/

/-- Every frame start advances the frame counter, pulses SYNC, puts the next rate in force, begins row 0 and makes a due
clear of the cutoff latch; it leaves the slots, the pixels held, the calibration and the settings alone. With no
transition pending and both command slots empty, it also flips what is COMPLETE, hands the CUTOFF (off) notices when the
latch clears, counts the quiet counters, and nothing else. All this is said in BLANKING, which a frame start ends; every
row of a frame is scanned before the next frame start, so a FRAME_START that finds a row left is the scan of that row and
then a FRAME_START (that the command brings its rows with it is the model's choice: log 9). -/
def Obligations.FrameStartAdvancesScan : Prop :=
  (∀ (order : LinkSet) (s : State) (row : Nat), TakesPackets s → s.scan.row = some row →
    ∃ u, exec .rowScan s = .next u ∧ exec (.frameStart order) s = exec (.frameStart order) u)
  ∧ ∀ (order : LinkSet) (s : State), TakesPackets s → s.scan.row = none →
    ∃ t, exec (.frameStart order) s = .next t
      ∧ SameBut [.posture, .engine, .scan, .touch, .port .a, .port .b, .outputs] s t
      ∧ t.scan = { s.scan with
          frame := s.scan.frame + 1, row := some 0, rate := s.scan.nextRate
          latch := if s.scan.latch = .clearDue then .clear else s.scan.latch }
      ∧ t.outputs = { s.outputs with syncPulses := s.outputs.syncPulses + 1 }
      ∧ t.posture = { s.posture with stalled := t.posture.stalled }
      ∧ t.touch = { s.touch with contacts := t.touch.contacts }
      ∧ t.engine.epochCounter = s.engine.epochCounter ∧ t.engine.ackFrames = s.engine.ackFrames
      ∧ (s.engine.pending = none → (∀ l, (s.port l).slot = none) →
          t.engine = { s.engine with records := s.engine.records.map frameRecord }
          ∧ t.posture = s.posture ∧ t.touch = s.touch
          ∧ ∀ l : Link,
            let told := if s.scan.latch = .clearDue then handed (.cutoff false (s.scan.frame + 1)) (s.port l)
              else s.port l
            ((s.port l).state ≠ .online → t.port l = told)
            ∧ ((s.port l).state = .online → t.port l = { told with
                quiet := (s.port l).quiet + 1
                state := if (s.port l).quiet + 1 = (s.port l).quietFrames then .quiet else .online }))

/-- A frame start that ends BLANKING while a transition is pending, with no AT_FRAME abort taken first. When the state is
ARMED or the window counter falls to 0 it makes the switch, after the flips of the same frame start: the engine, the
contacts, and for each link the CUTOFF (off) notice when the latch clears (its place: log 7), the ACTIVE notice and the
CANCEL notices; then the quiet counting, and the answer to the requesting SWITCH, to a WAIT for EPOCH or to a WAIT for
FRAME that ends. Otherwise the counter falls by 1. -/
def Obligations.SwitchMadeAtFrameStart : Prop :=
  ∀ (order : LinkSet) (s : State) (p : Pending), TakesPackets s → s.scan.row = none → s.engine.pending = some p →
    (∀ l a, order.get l = true → (s.port l).armed = some a → a.condition ≠ .atFrame) →
    let now := s.scan.frame + 1
    let late : LinkSet :=
      if p.armed then ⟨false, false⟩ else ⟨p.ackSet.a && !p.acked.a, p.ackSet.b && !p.acked.b⟩
    let kept := (s.engine.records.filter (fun r => r.membership = .both)).map (·.region.tag)
    let off : List Notice := if s.scan.latch = .clearDue then [.cutoff false now] else []
    let counted (x : Port) : Port :=
      if x.state = .online then
        { x with quiet := x.quiet + 1, state := if x.quiet + 1 = x.quietFrames then .quiet else .online }
      else x
    let notAtFrame (l : Link) : Prop := ∀ a, (s.port l).armed = some a → a.condition ≠ .atFrame
    ∃ t, exec (.frameStart order) s = .next t
      ∧ ((p.armed = true ∨ p.window ≤ 1) →
          t.engine = { s.engine with
              active := { slot := some p.slot, generation := p.generation, backdrop := p.backdrop }
              activeEpoch := p.epoch
              pending := none
              records := switchedRecords p.regions (s.engine.records.map frameRecord) }
          ∧ t.posture = { s.posture with stalled := false }
          ∧ slotUse t.engine p.slot = .active ∧ (∀ n, n ≠ p.slot → slotUse t.engine n = .none)
          ∧ transitionState t.engine = .steady
          ∧ t.touch = { s.touch with contacts := t.touch.contacts }
          ∧ (∀ c : TouchId, t.touch.contacts.get c = contactAfterCancel kept (s.touch.contacts.get c))
          ∧ ∀ l : Link,
            let told := handedAll
              (off ++ .active p.epoch p.slot p.generation now late
                :: cancelsFor l .switch p.epoch kept s.touch.contacts) (counted (s.port l))
            ((s.port l).slot = none → t.port l = told)
            ∧ (∀ q, (s.port l).slot = some q → (p.requester = some l ∨ ∃ tag, q = .waitEpoch tag) →
              t.port l = { told with
                slot := none, armed := none
                responses := told.responses ++ [{ tag := q.tag, code := q.code, status := .ok
                                                  results := .switched p.epoch p.slot now }] })
            ∧ (∀ tag n, (s.port l).slot = some (.waitFrame tag n) → p.requester ≠ some l → notAtFrame l →
              (1 < n → t.port l = { told with slot := some (.waitFrame tag (n - 1)) })
              ∧ (n ≤ 1 → t.port l = { told with
                  slot := none, armed := none
                  responses := told.responses
                    ++ [{ tag := tag, code := 0x61, status := .ok, results := .frame now }] }))
            ∧ (∀ tag, (s.port l).slot = some (.waitPosture tag) → p.requester ≠ some l → notAtFrame l →
              t.port l = told))
      ∧ (p.armed = false → 1 < p.window → (∀ l, notAtFrame l) →
          t.engine = { s.engine with
              pending := some { p with window := p.window - 1 }
              records := s.engine.records.map frameRecord }
          ∧ t.posture = s.posture ∧ t.touch = s.touch
          ∧ ∀ l : Link, (∀ tag n, (s.port l).slot ≠ some (.waitFrame tag n)) →
              t.port l = handedAll off (counted (s.port l)))

/-- ACK_WINDOW_EXPIRY, QUIET_DETECT and WAIT_FRAME_DONE are the frame start at which the thing named happens, taken whole
with completions first; when it would not happen at the next frame start the row has no effect. That these rows are
frame starts, and what they do when not due, are the model's choices (log 8). -/
def Obligations.NamedFrameStartsAreFrameStarts : Prop :=
  ∀ s : State, TakesPackets s →
    (∀ p, s.engine.pending = some p → p.armed = false → p.window ≤ 1 →
      ∃ t, exec .ackWindowExpiry s = .next t ∧ exec (.frameStart ⟨false, false⟩) s = .next t
        ∧ t.engine.active.slot = some p.slot ∧ t.engine.activeEpoch = p.epoch ∧ t.engine.pending = none)
    ∧ ((∀ p, s.engine.pending = some p → p.armed = true ∨ 1 < p.window) → exec .ackWindowExpiry s = .next s)
    ∧ ∀ l : Link,
      ((s.port l).state = .online → (s.port l).quiet + 1 = (s.port l).quietFrames →
        ∃ t, exec (.quietDetect l) s = .next t ∧ exec (.frameStart ⟨false, false⟩) s = .next t
          ∧ (t.port l).state = .quiet ∧ (t.port l).quiet = (s.port l).quietFrames)
      ∧ (((s.port l).state ≠ .online ∨ (s.port l).quiet + 1 ≠ (s.port l).quietFrames) →
        exec (.quietDetect l) s = .next s)
      ∧ (∀ tag n, (s.port l).slot = some (.waitFrame tag n) → n ≤ 1 →
        (∀ p, s.engine.pending = some p → p.requester ≠ some l) →
        ∃ t, exec (.waitFrameDone l) s = .next t ∧ exec (.frameStart ⟨false, false⟩) s = .next t
          ∧ (t.port l).slot = none ∧ (t.port l).armed = none
          ∧ (t.port l).responses = (s.port l).responses
              ++ [{ tag := tag, code := 0x61, status := .ok, results := .frame (s.scan.frame + 1) }])
      ∧ ((∀ tag n, (s.port l).slot = some (.waitFrame tag n) → 1 < n) → exec (.waitFrameDone l) s = .next s)

/-- An armed abort at a frame start. A WAIT for FRAME whose count is above 1 falls by 1 when no abort is armed. An AT_FRAME
abort ends a WAIT, answered ABORTED unless quiet, whether or not a transition is pending; but a WAIT for FRAME whose count
reaches 0, and a WAIT for EPOCH at the frame start of the switch, are answered OK when the completion is taken first, and
the switch is made in either order. A SWITCH is withdrawn when its AT_FRAME abort is taken first, or when no switch is
due; otherwise the switch is made and the abort disarmed. The operand `order` says which links' aborts are taken first
(log 6). -/
def Obligations.ArmedAbortActsAtFrameStart : Prop :=
  ∀ (order : LinkSet) (s : State) (l : Link), TakesPackets s →
    ∃ t, exec (.frameStart order) s = .next t
      ∧ (∀ q, (s.port l).slot = some q → (∀ tag, q ≠ .switch tag) →
          (∀ p, s.engine.pending = some p → p.requester ≠ some l) →
          let endsWith (rs : List Response) : Prop :=
            (t.port l).slot = none ∧ (t.port l).armed = none ∧ (t.port l).responses = (s.port l).responses ++ rs
          (∀ tag n, q = .waitFrame tag n → (s.port l).armed = none → 1 < n →
            (t.port l).slot = some (.waitFrame tag (n - 1)) ∧ (t.port l).responses = (s.port l).responses)
          ∧ ∀ quiet, (s.port l).armed = some { condition := .atFrame, quiet := quiet } →
            (∀ tag n, q = .waitFrame tag n → n ≤ 1 → order.get l = false →
              endsWith [{ tag := tag, code := 0x61, status := .ok, results := .frame (s.scan.frame + 1) }])
            ∧ ((∀ tag n, q = .waitFrame tag n → 1 < n ∨ order.get l = true) →
              (∀ tag, q = .waitEpoch tag →
                order.get l = true ∨ ∀ p, s.engine.pending = some p → p.armed = false ∧ 1 < p.window) →
              endsWith (if quiet = true then []
                else [{ tag := q.tag, code := 0x61, status := .aborted, results := .none }]))
            ∧ ∀ tag p, q = .waitEpoch tag → s.engine.pending = some p → (p.armed = true ∨ p.window ≤ 1) →
              (∀ a, (s.port l.other).armed = some a → a.condition ≠ .atFrame) →
              t.engine.active.slot = some p.slot ∧ t.engine.activeEpoch = p.epoch
              ∧ (order.get l = false →
                endsWith [{ tag := tag, code := 0x61, status := .ok
                            results := .switched p.epoch p.slot (s.scan.frame + 1) }]))
      ∧ ∀ tag p quiet, s.engine.pending = some p → p.requester = some l → (s.port l).slot = some (.switch tag) →
          (s.port l).armed = some { condition := .atFrame, quiet := quiet } → (s.port l.other).armed = none →
          (t.port l).slot = none ∧ (t.port l).armed = none ∧ t.engine.pending = none
          ∧ ((order.get l = true ∨ (p.armed = false ∧ 1 < p.window)) →
              t.engine.active = s.engine.active ∧ t.engine.activeEpoch = s.engine.activeEpoch
              ∧ (t.port l).responses = (s.port l).responses
                ++ (if quiet = true then []
                    else [{ tag := tag, code := 0x20, status := .aborted, results := .epoch p.epoch }]))
          ∧ (order.get l = false → (p.armed = true ∨ p.window ≤ 1) →
              t.engine.active.slot = some p.slot ∧ t.engine.activeEpoch = p.epoch
              ∧ (t.port l).responses = (s.port l).responses
                ++ [{ tag := tag, code := 0x20, status := .ok,
                      results := .switched p.epoch p.slot (s.scan.frame + 1) }])

/-- The active layout and the active epoch change only at a frame start or a reset, the posture only at a rising edge of
HINGE or a reset, and the front buffer of a DOUBLE region of the active layout only at a frame start or a reset. For the
last, BAD_PACKET is left out, since its bytes may bring several packets. -/
def Obligations.ActiveLayoutAndPostureChangeOnlyAtTheirEvents : Prop :=
  ∀ (c : Instr) (s t : State), exec c s = .next t → isReset c = false →
    (isFrameStart c = false →
      t.engine.active = s.engine.active ∧ t.engine.activeEpoch = s.engine.activeEpoch)
    ∧ ((∀ ticks order, c ≠ .hingeRise ticks order) → t.posture.posture = s.posture.posture)
    ∧ (RecordsOk s → isFrameStart c = false → isBytes c = false → ∀ r ∈ s.engine.records,
        r.membership ≠ .pending → r.region.content = .double →
        ∃ q ∈ t.engine.records, q.membership ≠ .pending ∧ q.region = r.region
          ∧ q.buffers.map (·.front) = r.buffers.map (·.front))

/-! ## The region store -/

/-- Resolution of an epoch and tag, where tags name one record of a layout: the pending layout's region under the
pending epoch, and otherwise the active layout's region whose entry epoch is at most the epoch, itself at most the
active epoch. -/
def Obligations.ResolveFollowsEpochs : Prop :=
  ∀ (e : Engine) (epoch : Word) (tag : Byte),
    (activeRecords e).Pairwise (fun x y => x.region.tag ≠ y.region.tag) →
    (pendingRecords e).Pairwise (fun x y => x.region.tag ≠ y.region.tag) → ∀ r : RuntimeRecord,
      resolve e epoch tag = some r ↔
        1 ≤ tag.toNat ∧ tag.toNat ≤ 15 ∧ r ∈ e.records ∧ r.region.tag = tag.toNat
        ∧ (((∃ p, e.pending = some p ∧ p.epoch = epoch) ∧ r.membership ≠ .active)
          ∨ ((∀ p, e.pending = some p → p.epoch ≠ epoch) ∧ r.membership ≠ .pending
              ∧ r.entryEpoch ≤ epoch ∧ epoch ≤ e.activeEpoch))

/-- BEGIN and END: a mark that resolves to no record is STALE, one for another's region MISDIRECTED, one for a region
that is not DOUBLE, or an END whose back is not WRITING, MALFORMED, each with no other effect. A BEGIN clears the back's
rows and sets it WRITING; an END sets it COMPLETE, or flips a region of the pending layout alone at once. -/
def Obligations.FrameMarksDriveBackState : Prop :=
  ∀ (l : Link) (region : Byte) (epoch : Word) (s : State), TakesPackets s →
    ∃ t u, exec (.beginMark l region epoch) s = .next t ∧ exec (.endMark l region epoch) s = .next u
      ∧ (resolve s.engine epoch region = none →
          CountedOn l .stale (arrive l s) t ∧ CountedOn l .stale (arrive l s) u)
      ∧ ∀ r, resolve s.engine epoch region = some r →
        (r.region.owner ≠ some l →
          CountedOn l .misdirected (arrive l s) t ∧ CountedOn l .misdirected (arrive l s) u)
        ∧ (r.region.owner = some l → r.region.content ≠ .double →
          CountedOn l .malformed (arrive l s) t ∧ CountedOn l .malformed (arrive l s) u)
        ∧ (r.region.owner = some l → r.region.content = .double → ∀ b, r.buffers = some b →
          (SameBut [.engine] (arrive l s) t
            ∧ t.engine = { s.engine with
                records := s.engine.records.map (fun q =>
                  if sameRecord r q then
                    { q with buffers := q.buffers.map (fun x =>
                        { x with back := x.back.map clearRows, backState := .writing }) }
                  else q) })
          ∧ (b.backState ≠ .writing → CountedOn l .malformed (arrive l s) u)
          ∧ (b.backState = .writing → r.membership ≠ .pending →
            SameBut [.engine] (arrive l s) u
            ∧ u.engine = { s.engine with
                records := s.engine.records.map (fun q =>
                  if sameRecord r q then
                    { q with buffers := q.buffers.map (fun x => { x with backState := .complete }) }
                  else q) })
          ∧ (b.backState = .writing → r.membership = .pending →
            SameBut [.engine] (arrive l s) u
            ∧ u.engine = { s.engine with
                records := s.engine.records.map (fun q =>
                  if sameRecord r q then
                    { q with buffers := q.buffers.map (fun x => match x.back with
                      | none => x
                      | some k => { x with
                          front := k, back := some x.front, backState := .idle, flipped := true }) }
                  else q) }))

/-- A line for a STORED region: the checks in their order, each discard counted and nothing else changed; a SINGLE write
sets the named columns, the other columns of a row that was not valid take the fill colour, the row becomes valid and an
active region's gate opens; a DOUBLE write fills a whole row of the back buffer. Every other pixel held keeps its
colour. A pixel's address, first block x 4096 + row x width + column, is read from section 4.1 (log 12). -/
def Obligations.StoredLineWritesItsRow : Prop :=
  ∀ (l : Link) (p : Line) (s : State), TakesPackets s →
    let row := p.row.toNat
    let offset := p.offset.toNat
    let n := p.pixels.length
    ∃ t, exec (.line l p) s = .next t
      ∧ (resolve s.engine p.epoch p.tag = none → CountedOn l .stale (arrive l s) t)
      ∧ ∀ r, resolve s.engine p.epoch p.tag = some r → r.region.content ≠ .streamed →
        (r.region.owner ≠ some l → CountedOn l .misdirected (arrive l s) t)
        ∧ (r.region.owner = some l →
            ¬ (row < r.region.height ∧ 1 ≤ n ∧ offset + n ≤ r.region.width) →
            CountedOn l .malformed (arrive l s) t)
        ∧ (r.region.owner = some l → row < r.region.height → 1 ≤ n → offset + n ≤ r.region.width →
          ∀ b, r.buffers = some b →
            (b.back = none →
              let base := b.front.first * 4096 + row * r.region.width
              SameBut [.engine, .store] (arrive l s) t
              ∧ t.engine = { s.engine with
                  records := s.engine.records.map (fun q =>
                    if sameRecord r q then
                      { q with
                        gate := if q.membership = .pending then q.gate else .opened
                        buffers := q.buffers.map (fun x =>
                          { x with front := { x.front with valid := x.front.valid.set row true } }) }
                    else q) }
              ∧ ∀ a, pixelAt t.store a =
                  if base + offset ≤ a ∧ a < base + offset + n then p.pixels.getD (a - (base + offset)) ⟨0, 0, 0⟩
                  else if b.front.valid.getD row false = false ∧ base ≤ a ∧ a < base + r.region.width then
                    r.region.fill
                  else pixelAt s.store a)
            ∧ ∀ k, b.back = some k →
              (¬ (offset = 0 ∧ n = r.region.width) → CountedOn l .malformed (arrive l s) t)
              ∧ (offset = 0 → n = r.region.width → b.backState ≠ .writing →
                  CountedOn l .malformed (arrive l s) t)
              ∧ (offset = 0 → n = r.region.width → b.backState = .writing →
                let base := k.first * 4096 + row * r.region.width
                SameBut [.engine, .store] (arrive l s) t
                ∧ t.engine = { s.engine with
                    records := s.engine.records.map (fun q =>
                      if sameRecord r q then
                        { q with buffers := q.buffers.map (fun x =>
                            { x with back := x.back.map (fun y => { y with valid := y.valid.set row true }) }) }
                      else q) }
                ∧ ∀ a, pixelAt t.store a =
                    if base ≤ a ∧ a < base + r.region.width then p.pixels.getD (a - base) ⟨0, 0, 0⟩
                    else pixelAt s.store a))

/-- A line for a STREAMED region: the arrival checks in their order, and the append at the tail with the HOLD that the
new depth gives. -/
def Obligations.StreamedLineJoinsQueue : Prop :=
  ∀ (l : Link) (p : Line) (s : State) (r : RuntimeRecord), TakesPackets s →
    resolve s.engine p.epoch p.tag = some r → r.region.content = .streamed →
    let depth := (s.port l).stream.length
    ∃ t, exec (.line l p) s = .next t
      ∧ (r.region.owner ≠ some l → CountedOn l .misdirected (arrive l s) t)
      ∧ (r.region.owner = some l →
          ¬ (p.row.toNat < r.region.height ∧ 1 ≤ p.pixels.length
              ∧ p.offset.toNat + p.pixels.length ≤ r.region.width) →
          CountedOn l .malformed (arrive l s) t)
      ∧ (r.region.owner = some l → p.row.toNat < r.region.height → 1 ≤ p.pixels.length →
          p.offset.toNat + p.pixels.length ≤ r.region.width →
          (48 ≤ depth → CountedOn l .overrun (arrive l s) t)
          ∧ (depth < 48 → SameBut [.port l] s t
            ∧ t.port l = { (arrive l s).port l with
                stream := (s.port l).stream ++ [p]
                hold := if 40 ≤ depth + 1 then true else if depth + 1 ≤ 32 then false else (s.port l).hold }))

/-- The store's handling of a frame start, record by record: a region of the pending layout alone is left alone; a DOUBLE
region of the active layout first has its due front clear carried out and then flips when its back is COMPLETE, which
sets the flip flag and opens the gate; a record with no due clear that is not DOUBLE is left alone. -/
def Obligations.FrameStartFlipsCompleteBacks : Prop :=
  (∀ s : State, (storeFrame s).engine = { s.engine with records := s.engine.records.map frameRecord }
    ∧ SameBut [.engine] s (storeFrame s))
  ∧ ∀ r : RuntimeRecord,
    (r.membership = .pending → frameRecord r = r)
    ∧ (r.region.content ≠ .double → (∀ b, r.buffers = some b → b.clearDue = none) → frameRecord r = r)
    ∧ ∀ b k, r.membership ≠ .pending → r.region.content = .double → r.buffers = some b → b.back = some k →
        k.label ≠ b.front.label → (b.clearDue = none ∨ b.clearDue = some b.front.label) →
        let front := if b.clearDue = none then b.front
          else { b.front with valid := b.front.valid.map (fun _ => false) }
        (b.backState = .complete → frameRecord r = { r with
            gate := .opened
            buffers := some
              { front := k, back := some front, backState := .idle, flipped := true, clearDue := none } })
        ∧ (b.backState ≠ .complete → frameRecord r = { r with
            buffers := some { b with front := front, clearDue := none } })

/-- At the frame start of a switch the store's handling and the switch may be taken in either order: the state after
both is the same. -/
def Obligations.FlipAndSwitchCommute : Prop :=
  ∀ (late : LinkSet) (s : State) (p : Pending), RecordsOk s → s.engine.pending = some p →
    storeFrame (makeSwitch late s) = makeSwitch late (storeFrame s)

/-- REGION-CLEAR's four checks in order, the records it acts on, and its effect on each buffer named: a back buffer, a
SINGLE buffer and the front of a region of the pending layout alone are cleared at once; the front of an active DOUBLE
region is recorded as due. No gate, flip flag or placement changes. That the response gives a tag's active record
before its pending one is the model's choice (log 15). -/
def Obligations.RegionClearActsOnOwnedRecords : Prop :=
  ∀ (l : Link) (tag region which : Byte) (s : State), SlotFree l s →
    let named := s.engine.records.filter (fun r => r.region.tag = region.toNat)
    let owned := named.filter (fun r => r.region.owner = some l)
    ∃ t, exec (.regionClear l tag region which) s = .next t
      ∧ ((region.toNat = 0 ∨ 15 < region.toNat ∨ which.toNat = 0 ∨ 3 < which.toNat) →
          RefusedWith l tag .regionClear .badParam .none s t)
      ∧ ∀ w : Which, 1 ≤ region.toNat → region.toNat ≤ 15 →
          ((which = 1 ∧ w = .front) ∨ (which = 2 ∧ w = .back) ∨ (which = 3 ∧ w = .both)) →
        let acted := owned.filter (fun r =>
          r.region.content = .double ∨ (r.region.content = .single ∧ w ≠ .back))
        (named = [] → RefusedWith l tag .regionClear .noRegion .none s t)
        ∧ (named ≠ [] → owned = [] → RefusedWith l tag .regionClear .notOwner .none s t)
        ∧ (owned ≠ [] → acted = [] → RefusedWith l tag .regionClear .badParam .none s t)
        ∧ (acted ≠ [] →
          SameBut [.engine, .port l] s t
          ∧ AnswersWith l tag .regionClear .ok
              (.cleared (acted.map (fun r =>
                { membership := r.membership
                  front := if w = .back then none else r.buffers.map (fun b =>
                    (b.front.label, decide (b.back ≠ none ∧ r.membership ≠ .pending)))
                  back := if w = .front then none else r.buffers.bind (fun b => b.back.map (·.label)) }))) s t
          ∧ ∃ change : RuntimeRecord → RuntimeRecord,
            t.engine = { s.engine with records := s.engine.records.map change }
            ∧ (∀ r ∈ s.engine.records, r ∉ acted → change r = r)
            ∧ ∀ r ∈ acted, ∀ b, r.buffers = some b → ∃ x : Buffers, change r = { r with buffers := some x }
              ∧ x.flipped = b.flipped
              ∧ (w = .back → x.front = b.front ∧ x.clearDue = b.clearDue)
              ∧ (w ≠ .back → (b.back = none ∨ r.membership = .pending) →
                  x.front = { b.front with valid := b.front.valid.map (fun _ => false) }
                  ∧ x.clearDue = b.clearDue)
              ∧ (w ≠ .back → b.back ≠ none → r.membership ≠ .pending →
                  x.front = b.front ∧ x.clearDue = some b.front.label)
              ∧ ((w = .front ∨ b.back = none) → x.back = b.back ∧ x.backState = b.backState)
              ∧ ∀ k, w ≠ .front → b.back = some k →
                  x.back = some { k with valid := k.valid.map (fun _ => false) } ∧ x.backState = .idle)

/-- Placement: over a map in order whose runs lie in the store, a buffer takes the lowest place where it fits, and the
request is refused only when it fits nowhere; the regions are taken in the order given, and a DOUBLE region's buffer A
before its buffer B, each placed with every row not valid. -/
def Obligations.AllocationIsFirstFit : Prop :=
  (∀ (map : List Run) (need : Nat), 1 ≤ need → map.Pairwise (fun x y => x.first + x.count ≤ y.first) →
    (∀ r ∈ map, r.first + r.count ≤ 1536) →
    (∀ n, firstFit need map = some n → Fits map need n ∧ ∀ m, m < n → ¬ Fits map need m)
    ∧ (firstFit need map = none → ∀ m, ¬ Fits map need m))
  ∧ ∀ (map : List Run) (r : Region) (rs : List Region),
    let need := (r.width * r.height + 4095) / 4096
    let empty := List.replicate r.height false
    allocate map [] = some []
    ∧ (r.content = .streamed → allocate map (r :: rs) = (allocate map rs).map ((r, none) :: ·))
    ∧ (r.content ≠ .streamed → firstFit need map = none → allocate map (r :: rs) = none)
    ∧ ∀ n, firstFit need map = some n →
      let map1 := insertRun { first := n, count := need, tag := r.tag, role := .pending, label := .a } map
      (r.content = .single → allocate map (r :: rs) = (allocate map1 rs).map ((r, some
          { front := { label := .a, first := n, count := need, valid := empty }, back := none, backState := .idle,
            flipped := false, clearDue := none }) :: ·))
      ∧ (r.content = .double → firstFit need map1 = none → allocate map (r :: rs) = none)
      ∧ ∀ m, firstFit need map1 = some m → r.content = .double →
          allocate map (r :: rs) = (allocate
              (insertRun { first := m, count := need, tag := r.tag, role := .pending, label := .b } map1) rs).map ((r,
            some
              { front := { label := .a, first := n, count := need, valid := empty }
                back := some { label := .b, first := m, count := need, valid := empty }, backState := .idle
                flipped := false, clearDue := none }) :: ·)

/-! ## The panel scan -/

/-- The scan of a row. Its segments are the active regions whose rows include it, in ascending order of column; they are
worked one after another, each on the state the one before it left: a segment of no link, and a STORED one, changes
nothing; a STREAMED one is scanned with its owner's queue (`scanStreamed`, which has a statement of its own). After the
last segment of every row each link's queue has its examination at the end of the row. The current row moves on, BLANKING
after the last; no block but the queues and the gates changes. The row sent is black while the cutoff is latched, and the
backdrop where no region is active. In BLANKING no row is scanned (log 9). -/
def Obligations.RowScanSendsOneRow : Prop :=
  (∀ s : State, TakesPackets s →
    (s.scan.row = none → exec .rowScan s = .next s)
    ∧ ∀ row, s.scan.row = some row →
      let segs := rowSegments row s.engine
      let x := (scanSegments row segs s).1
      segs.Perm ((activeRecords s.engine).filter (fun r =>
        r.region.row0 ≤ row ∧ row ≤ r.region.row0 + r.region.height - 1 ∧ 1 ≤ r.region.height))
      ∧ segs.Pairwise (fun q r => q.region.col0 ≤ r.region.col0)
      ∧ ∃ t px, exec .rowScan s = .next t
        ∧ SameBut [.engine, .scan, .port .a, .port .b, .outputs] s t
        ∧ t.scan = { s.scan with row := if row < 2199 then some (row + 1) else none }
        ∧ t.outputs = { s.outputs with panelRow := some (row, px) }
        ∧ (∃ change : RuntimeRecord → RuntimeRecord,
            t.engine = { s.engine with records := s.engine.records.map change }
            ∧ ∀ r, change r = r ∨ (r.membership ≠ .pending ∧ change r = { r with gate := .opened }))
        ∧ t.engine = x.engine
        ∧ (∀ l : Link,
            let y := examine x.engine s.scan.frame l row 2480 (x.port l).stream
            t.port l = Port.count .stale y.discarded { x.port l with
              stream := y.queue, hold := holdAfter y.queue.length (x.port l).hold })
        ∧ (s.scan.latch ≠ .clear → px = List.replicate 2480 ⟨0, 0, 0⟩)
        ∧ (activeRecords s.engine = [] → s.scan.latch = .clear →
            px = List.replicate 2480 s.engine.active.backdrop))
  ∧ ∀ (row : Nat) (r : RuntimeRecord) (rs : List RuntimeRecord) (s : State),
    (scanSegments row [] s).1 = s
    ∧ ((r.region.owner = none ∨ r.region.content ≠ .streamed) →
        (scanSegments row (r :: rs) s).1 = (scanSegments row rs s).1)
    ∧ ∀ l, r.region.owner = some l → r.region.content = .streamed →
        (scanSegments row (r :: rs) s).1 = (scanSegments row rs (scanStreamed l row r s).1).1

/-- Every pixel of a row sent while the latch is CLEAR: the backdrop where no active region lies; the fill colour of a
NONE region and of a STORED region that is CLOSED or whose row is not valid; for any other STORED region the pixel of the
front buffer at the local row and column, both counted backwards in a TURNED region; and for a STREAMED region owned by a
link the pixel that its segment gives at its turn, on the state that the segments before it leave (what such a segment
gives has a statement of its own). A pixel's address is that of log 12. -/
def Obligations.EveryPixelFollowsItsRegion : Prop :=
  ∀ (s : State) (row : Nat), RecordsOk s → SlotsOk s → TakesPackets s → s.scan.row = some row →
    s.scan.latch = .clear →
    ∃ t px, exec .rowScan s = .next t ∧ t.outputs.panelRow = some (row, px) ∧ px.length = 2480
      ∧ ∀ c, c < 2480 →
        ((∀ r ∈ activeRecords s.engine, containsPixel r.region c row = false) →
          px[c]? = some s.engine.active.backdrop)
        ∧ ∀ r ∈ activeRecords s.engine, containsPixel r.region c row = true →
          (r.region.owner = none → px[c]? = some r.region.fill)
          ∧ (∀ l, r.region.owner = some l → r.region.content = .streamed →
              ∃ before after, rowSegments row s.engine = before ++ r :: after
                ∧ px[c]? = (scanStreamed l row r (scanSegments row before s).1).2[c - r.region.col0]?)
          ∧ ∀ b, r.region.content ≠ .streamed → r.buffers = some b →
            let lr := match r.region.orientation with
              | .upright => row - r.region.row0
              | .turned => r.region.height - 1 - (row - r.region.row0)
            let lc := match r.region.orientation with
              | .upright => c - r.region.col0
              | .turned => r.region.width - 1 - (c - r.region.col0)
            ((r.gate = .closed ∨ b.front.valid.getD lr false = false) → px[c]? = some r.region.fill)
            ∧ (r.gate = .opened → b.front.valid.getD lr false = true →
                px[c]? = some (pixelAt s.store (b.front.first * 4096 + lr * r.region.width + lc)))

/-- One examination of the head line takes five steps in order; a run of examinations discards from the head until a
line waits or is consumed or the queue is empty. -/
def Obligations.HeadLineIsJudgedInFiveSteps : Prop :=
  (∀ (e : Engine) (frame : Word) (l : Link) (row col : Nat) (p : Line),
    let d := (p.frameTag.toNat + 256 - frame.toNat % 256) % 256
    (resolve e p.epoch p.tag = none → judge e frame l row col p = .discard)
    ∧ ∀ r, resolve e p.epoch p.tag = some r →
      let fits := r.region.content = .streamed ∧ r.region.owner = some l ∧ p.row.toNat < r.region.height
        ∧ p.offset.toNat + p.pixels.length ≤ r.region.width
      let atRow := r.region.row0 + p.row.toNat
      let atCol := r.region.col0
      (¬ fits → judge e frame l row col p = .discard)
      ∧ (fits → (∃ q, e.pending = some q ∧ q.epoch = p.epoch) → judge e frame l row col p = .wait)
      ∧ (fits → (∀ q, e.pending = some q → q.epoch ≠ p.epoch) →
        (128 ≤ d → judge e frame l row col p = .discard)
        ∧ (1 ≤ d → d ≤ 127 → judge e frame l row col p = .wait)
        ∧ (d = 0 → (atRow < row ∨ (atRow = row ∧ atCol < col)) → judge e frame l row col p = .discard)
        ∧ (d = 0 → atRow = row → atCol = col → judge e frame l row col p = .consume)
        ∧ (d = 0 → (row < atRow ∨ (atRow = row ∧ col < atCol)) → judge e frame l row col p = .wait)))
  ∧ ∀ (e : Engine) (frame : Word) (l : Link) (row col : Nat) (q : List Line),
    let x := examine e frame l row col q
    ∃ gone rest, q = gone ++ rest ∧ gone.length = x.discarded
      ∧ (∀ p ∈ gone, judge e frame l row col p = .discard)
      ∧ ((rest = [] ∧ x.queue = [] ∧ x.consumed = none)
        ∨ (∃ p ps, rest = p :: ps ∧ judge e frame l row col p = .wait ∧ x.queue = p :: ps ∧ x.consumed = none)
        ∨ ∃ p ps, rest = p :: ps ∧ judge e frame l row col p = .consume ∧ x.queue = ps ∧ x.consumed = some p)

/-- A STREAMED segment: the examinations at its position leave the queue, set HOLD and count STALE; a consumed line opens
the region's gate and is shown from its offset on, the fill colour elsewhere; without one the whole segment is the fill
colour, and LATE is counted when the gate is OPEN, the port ONLINE and the latch CLEAR. -/
def Obligations.StreamedSegmentShowsHeadLine : Prop :=
  ∀ (l : Link) (row : Nat) (r : RuntimeRecord) (s : State),
    let x := examine s.engine s.scan.frame l row r.region.col0 (s.port l).stream
    let port := Port.count .stale x.discarded { s.port l with
      stream := x.queue, hold := holdAfter x.queue.length (s.port l).hold }
    let t := (scanStreamed l row r s).1
    let px := (scanStreamed l row r s).2
    SameBut [.engine, .port l] s t
    ∧ (∀ p, x.consumed = some p →
        t.port l = port
        ∧ t.engine = { s.engine with
            records := s.engine.records.map (fun q =>
              if sameRecord r q then { q with gate := if q.membership = .pending then q.gate else .opened } else q) }
        ∧ (p.offset.toNat + p.pixels.length ≤ r.region.width →
            px.length = r.region.width
            ∧ ∀ c, c < r.region.width → px[c]? = some
              (if p.offset.toNat ≤ c ∧ c < p.offset.toNat + p.pixels.length then
                p.pixels.getD (c - p.offset.toNat) r.region.fill
              else r.region.fill)))
    ∧ (x.consumed = none →
        t.engine = s.engine ∧ px = List.replicate r.region.width r.region.fill
        ∧ ((r.gate = .opened ∧ (s.port l).state = .online ∧ s.scan.latch = .clear) →
            t.port l = Port.count .late 1 port)
        ∧ (¬ (r.gate = .opened ∧ (s.port l).state = .online ∧ s.scan.latch = .clear) → t.port l = port))

/-- An assertion of CUTOFF latches the cutoff, tells both links, and cancels every BOUND contact, its owner told behind
the CUTOFF notice. RESUME: OK while the latch is CLEAR; refused while CUTOFF is asserted; otherwise a clear is due. That
RESUME's operand is kept as the level last known is the model's choice (log 3), and so is the answer to a RESUME that
finds a clear due and CUTOFF asserted, which the spec says does not arise; that an OK to a RESUME with the latch CLEAR
carries no result is the model's choice too (log 15). -/
def Obligations.CutoffLatchesAndResumeClears : Prop :=
  (∀ s : State, TakesPackets s → ∃ t, exec .cutoffAssert s = .next t
    ∧ SameBut [.scan, .touch, .port .a, .port .b, .cutoffInput] s t
    ∧ t.scan = { s.scan with latch := .latched } ∧ t.cutoffInput = true
    ∧ t.touch = { s.touch with contacts := t.touch.contacts }
    ∧ (∀ c : TouchId, t.touch.contacts.get c = contactAfterCancel [] (s.touch.contacts.get c))
    ∧ ∀ l : Link, t.port l = handedAll
        (.cutoff true s.scan.frame :: cancelsFor l .cutoff s.engine.activeEpoch [] s.touch.contacts) (s.port l))
  ∧ ∀ (l : Link) (tag : Byte) (cutoff : Bool) (s : State), SlotFree l s →
    ∃ t, exec (.resume l tag cutoff) s = .next t ∧ t.cutoffInput = cutoff
      ∧ (s.scan.latch = .clear →
          SameBut [.cutoffInput, .port l] s t ∧ AnswersWith l tag .resume .ok .none s t)
      ∧ (s.scan.latch ≠ .clear → cutoff = true →
          SameBut [.cutoffInput, .port l] s t ∧ AnswersWith l tag .resume .cutoffActive .none s t)
      ∧ (s.scan.latch ≠ .clear → cutoff = false →
          SameBut [.scan, .cutoffInput, .port l] s t ∧ t.scan = { s.scan with latch := .clearDue }
          ∧ AnswersWith l tag .resume .ok (.frame s.scan.frame) s t)

/-! ## The touch router -/

/-- The touch controller port: a read begins, ends in a timeout with its report taken as malformed, or ends in a report.
A malformed report is discarded whole and adds 1 to TOUCH_MALFORMED; a well-formed one is applied entry by entry in
report order. `ready` is the level of TOUCH_READY as the port becomes IDLE. That an end of a read has no effect while no
read is in progress is the model's choice (log 4). -/
def Obligations.TouchReportsAreCheckedWhole : Prop :=
  ∀ (count : Byte) (entries : List TouchEntry) (ready : Bool) (s : State), TakesPackets s →
    let badEntry (e : TouchEntry) : Prop :=
      9 < e.id.toNat ∨ 2 < e.event.toNat ∨ 4095 < e.tx.toNat ∨ 4095 < e.ty.toNat
    let bad : State := { s with touch := { s.touch with
      malformed := s.touch.malformed + 1
      reading := ready } }
    exec .touchReadStart s = .next { s with touch := { s.touch with reading := true } }
    ∧ (s.touch.reading = true → exec (.touchReadTimeout ready) s = .next bad)
    ∧ (s.touch.reading = false → exec (.touchReadTimeout ready) s = .next s
        ∧ exec (.touchReport count entries ready) s = .next s)
    ∧ (s.touch.reading = true →
        (10 < count.toNat → exec (.touchReport count entries ready) s = .next bad)
        ∧ (count.toNat ≤ 10 → entries.length = count.toNat →
          ((∃ e ∈ entries, badEntry e) → exec (.touchReport count entries ready) s = .next bad)
          ∧ ((∀ e ∈ entries, ¬ badEntry e) →
            ∃ es : List CheckedEntry, List.Forall₂ (fun (e : TouchEntry) (x : CheckedEntry) =>
                x.id.val = e.id.toNat ∧ touchKindOfByte e.event = some x.kind ∧ x.tx = e.tx.toNat
                  ∧ x.ty = e.ty.toNat) entries es
              ∧ exec (.touchReport count entries ready) s = .next
                  (setReading ready (es.foldl (fun s x => applyEntry x.id x.kind x.tx x.ty s) s)))))

/-- The contact table, entry by entry: a DOWN or MOVE for a FREE id binds when the pixel lies in a region owned by a
link, routed and OPEN, with the latch CLEAR, and is discarded otherwise; a BOUND id moves or lifts in its region's own
frame wherever the finger is; a DISCARD id waits for its UP. -/
def Obligations.ContactTableFollowsItsCases : Prop :=
  ∀ (c : TouchId) (k : TouchKind) (tx ty : Nat) (s : State),
    let p := mapPoint s.touch.calibration tx ty
    let found := recordUnder s.engine (pixelUnder p).1 (pixelUnder p).2
    let t := applyEntry c k tx ty s
    let table (x : Contact) : Touch := { s.touch with contacts := s.touch.contacts.set c.val x c.isLt }
    (s.touch.contacts.get c = .free →
      (k = .up → t = s)
      ∧ (k ≠ .up → (∀ r, found = some r → r.region.owner = none ∨ r.region.touch = .ignore ∨ r.gate = .closed
            ∨ s.scan.latch ≠ .clear) →
          t = { s with touch := table .discard })
      ∧ ∀ r l, k ≠ .up → found = some r → r.region.owner = some l → r.region.touch = .route → r.gate = .opened →
          s.scan.latch = .clear →
          let at_ := localPoint r.region p
          SameBut [.touch, .port l] s t ∧ t.touch = table (.bound r.region.tag l at_.1 at_.2)
          ∧ t.port l = handed (.touch .down c r.region.tag at_.1 at_.2 s.engine.activeEpoch) (s.port l))
    ∧ (s.touch.contacts.get c = .discard →
      (k = .up → t = { s with touch := table .free }) ∧ (k ≠ .up → t = s))
    ∧ ∀ tag l u v r, s.touch.contacts.get c = .bound tag l u v →
        recordWithTag tag (activeRecords s.engine) = some r →
        let at_ := localPoint r.region p
        SameBut [.touch, .port l] s t
        ∧ (k = .up → t.touch = table .free
            ∧ t.port l = handed (.touch .up c tag at_.1 at_.2 s.engine.activeEpoch) (s.port l))
        ∧ (k ≠ .up → t.touch = table (.bound tag l at_.1 at_.2)
            ∧ t.port l = handed (.touch .move c tag at_.1 at_.2 s.engine.activeEpoch) (s.port l))

/-- The touch mapping: the panel position, the region under its pixel, the local position in sixteenths of a pixel,
clamped to the nearest edge of the region and mirrored in a TURNED one, and its match with the readout: the local pixel
reported is the one the scan shows at the panel pixel touched. -/
def Obligations.TouchPositionMatchesReadout : Prop :=
  (∀ (cal : Calibration) (tx ty : Nat),
    let p := mapPoint cal tx ty
    p.x16 = max 0 (min 39679 ((((tx * cal.gx + 2048) / 4096 : Nat) : Int) + cal.ox))
    ∧ p.y16 = max 0 (min 35199 ((((ty * cal.gy + 2048) / 4096 : Nat) : Int) + cal.oy))
    ∧ (pixelUnder p).1 < 2480 ∧ (pixelUnder p).2 < 2200)
  ∧ (∀ (e : Engine) (c r : Nat),
    (∀ q, recordUnder e c r = some q → q ∈ activeRecords e ∧ containsPixel q.region c r = true)
    ∧ (recordUnder e c r = none → ∀ q ∈ activeRecords e, containsPixel q.region c r = false))
  ∧ ∀ (g : Region) (p : TouchPoint), RegionOk g → 0 ≤ p.x16 → 0 ≤ p.y16 →
    let u := (localPoint g p).1
    let v := (localPoint g p).2
    let du : Int := max 0 (min (16 * g.width - 1) (p.x16 - 16 * g.col0))
    let dv : Int := max 0 (min (16 * g.height - 1) (p.y16 - 16 * g.row0))
    (g.orientation = .upright → (u : Int) = du ∧ (v : Int) = dv)
    ∧ (g.orientation = .turned → (u : Int) = 16 * g.width - 1 - du ∧ (v : Int) = 16 * g.height - 1 - dv)
    ∧ u ≤ 16 * g.width - 1 ∧ v ≤ 16 * g.height - 1
    ∧ (containsPixel g (pixelUnder p).1 (pixelUnder p).2 = true →
        v / 16 = localRow g (pixelUnder p).2
        ∧ u / 16 = match g.orientation with
          | .upright => (pixelUnder p).1 - g.col0
          | .turned => g.width - 1 - ((pixelUnder p).1 - g.col0))

/-! ## The links -/

/-- The arrival of a valid packet makes the port ONLINE with quiet counter 0, and hands a port that was OFFLINE the
CURRENT notice with the part's state; nothing else changes. The order in which a command is then handled: with 8
responses unsent it is discarded and counted OVERRUN; an unknown code is answered whatever the slot holds; a command that
uses the slot is refused with BUSY, naming the running command, while the slot is occupied. All responses held count
towards the 8 (log 10). Of the commands discarded or refused so, RESUME alone changes the level of CUTOFF last known, to
the one it was sent with (log 3). -/
def Obligations.CommandsAreTakenInOrder : Prop :=
  (∀ (l : Link) (s : State),
    SameBut [.port l] s (arrive l s)
    ∧ ((s.port l).state ≠ .offline → (arrive l s).port l = { s.port l with state := .online, quiet := 0 })
    ∧ ((s.port l).state = .offline → (arrive l s).port l = placeNotice
        (.current
          { activeSlot := s.engine.active.slot, activeEpoch := s.engine.activeEpoch,
            transition := transitionState s.engine, pendingSlot := s.engine.pending.map (·.slot),
            pendingEpoch := s.engine.pending.map (·.epoch),
            ownedTags := ((activeRecords s.engine).filter (fun r => r.region.owner = some l)).map (·.region.tag),
            frame := s.scan.frame, rate := s.scan.rate, latch := s.scan.latch,
            posture := s.posture.posture, face := s.posture.face, sensor := s.posture.sensor,
            desired := desiredSlot s.posture, stalled := s.posture.stalled })
        { s.port l with state := .online, quiet := 0 }))
  ∧ (∀ (c : Instr) (l : Link) (s : State), commandLink c = some l → TakesPackets s →
    8 ≤ (s.port l).responses.length →
    ∃ t, exec c s = .next t ∧ SameBut [.cutoffInput, .port l] s t ∧ t.cutoffInput = levelAfter c s.cutoffInput
      ∧ t.port l = Port.count .overrun 1 ((arrive l s).port l))
  ∧ (∀ (l : Link) (tag code : Byte) (s : State), TakesCommand l s →
    ∃ t, exec (.unknownCommand l tag code) s = .next t ∧ SameBut [.port l] s t
      ∧ t.port l = { (arrive l s).port l with
          responses := (s.port l).responses
            ++ [{ tag := tag, code := code, status := .unknownCommand, results := .none }] })
  ∧ ∀ (c : Instr) (l : Link) (tag : Byte) (name : Command) (r : Running) (s : State),
    slotUser c = some (l, tag, name) → TakesCommand l s → (s.port l).slot = some r →
    ∃ t, exec c s = .next t ∧ SameBut [.cutoffInput, .port l] s t ∧ t.cutoffInput = levelAfter c s.cutoffInput
      ∧ AnswersWith l tag name .busy (.running r) s t

/-- PORT-RESET, whatever the slot holds: the port is ONLINE with its queues, counters, slot and armed abort cleared and
its OK behind the responses already produced; the staging closes, the acknowledgement is withdrawn and ARMED returns to
ANNOUNCED, the requesting link is forgotten, the link's active STREAMED gates close, its contacts are discarded. A CURRENT
notice is queued when the port was OFFLINE. -/
def Obligations.PortResetClearsItsLink : Prop :=
  ∀ (l : Link) (tag : Byte) (s : State), TakesCommand l s →
    ∃ t, exec (.portReset l tag) s = .next t ∧ SameBut [.slots, .engine, .touch, .port l] s t
      ∧ t.port l =
          { state := .online, quiet := 0, quietFrames := (s.port l).quietFrames, slot := none, armed := none,
            stream := [], hold := false
            responses := (s.port l).responses
              ++ [{ tag := tag, code := 0x63, status := .ok, results := .none }]
            counters := ⟨0, 0, 0, 0, 0, 0, 0, 0⟩
            notices := if (s.port l).state = .offline then [currentNotice l t] else [] }
      ∧ (attn (t.port l) = true ↔ (s.port l).state = .offline)
      ∧ t.slots = { s.slots with staging := s.slots.staging.set l none }
      ∧ (∃ pend, t.engine = { s.engine with
          pending := pend
          records := s.engine.records.map (fun r =>
            if r.region.content = .streamed ∧ r.region.owner = some l ∧ r.membership ≠ .pending then
              { r with gate := .closed }
            else r) }
          ∧ (s.engine.pending = none → pend = none)
          ∧ ∀ p, s.engine.pending = some p → ∃ armed, pend = some { p with
              requester := if p.requester = some l then none else p.requester
              acked := p.acked.set l false
              armed := armed }
            ∧ (p.acked.get l = false → armed = p.armed)
            ∧ (p.acked.get l = true → p.ackSet ≠ ⟨false, false⟩ → armed = false)
            ∧ (p.acked.get l = true → p.ackSet = ⟨false, false⟩ → armed = p.armed))
      ∧ t.touch = { s.touch with contacts := t.touch.contacts }
      ∧ ∀ c : TouchId,
          ((∃ g u v, s.touch.contacts.get c = .bound g l u v) → t.touch.contacts.get c = .discard)
          ∧ ((∀ g u v, s.touch.contacts.get c ≠ .bound g l u v) →
              t.touch.contacts.get c = s.touch.contacts.get c)

/-- STATUS answers with its link's record, as the packet's arrival left it, and sets the link's counters to 0; FETCH
removes and returns the oldest notices, up to 8, with the number left, and ATTN stays high while notices are left; a
response that has been sent leaves the port, oldest first, and is the packet on the return direction. That RESPONSE_SENT
with no response held has no effect, and that the last packet sent is kept, are the model's choices (log 18). The packet:
kind 0x81, flags 0x00, the payload's length, tag, code, status and results, and the CRC over all of these; a notice takes
32 bytes, a region record 17, and the entries of one list have one size (layouts that chapter 9 leaves open: log 15). -/
def Obligations.StatusFetchAndResponsesSent : Prop :=
  (∀ (l : Link) (tag : Byte) (s : State), TakesCommand l s →
    let p := (arrive l s).port l
    ∃ t, exec (.status l tag) s = .next t ∧ SameBut [.port l] s t
      ∧ t.port l = { p with
          counters := ⟨0, 0, 0, 0, 0, 0, 0, 0⟩
          responses := p.responses ++ [
            { tag := tag, code := 0x64, status := .ok
              results := .status
                { state := .online, quiet := 0, quietFrames := p.quietFrames, running := p.slot, armed := p.armed,
                  streamCount := p.stream.length, hold := p.hold, noticeCount := p.notices.length,
                  moveCount := p.notices.countP Notice.isMove, frame := s.scan.frame,
                  activeEpoch := s.engine.activeEpoch, pendingEpoch := s.engine.pending.map (·.epoch),
                  latch := s.scan.latch, counters := p.counters } }] })
  ∧ (∀ (l : Link) (tag : Byte) (s : State), TakesCommand l s →
    let p := (arrive l s).port l
    ∃ t, exec (.fetch l tag) s = .next t ∧ SameBut [.port l] s t
      ∧ t.port l = { p with
          notices := p.notices.drop 8
          responses := p.responses ++ [
            { tag := tag, code := 0x65, status := .ok
              results := .notices (p.notices.take 8) (p.notices.length - 8) }] }
      ∧ (attn (t.port l) = true ↔ 8 < p.notices.length))
  ∧ (∀ r : Response,
    let payload := r.tag :: r.code :: statusByte r.status :: resultsBytes r.results
    let body := 0x81 :: 0x00 :: (halfBytes (BitVec.ofNat 16 payload.length) ++ payload)
    responsePacket r = body ++ halfBytes (crc body)
    ∧ (r.results = .none → payload.length = 3)
    ∧ (∀ ns left, r.results = .notices ns left → payload.length = 5 + 32 * ns.length
        ∧ ∃ n k, payload = r.tag :: r.code :: statusByte r.status :: n :: k :: ns.flatMap noticeBytes
          ∧ n = BitVec.ofNat 8 ns.length ∧ k = BitVec.ofNat 8 left)
    ∧ (∀ es, r.results = .cleared es → payload.length = 4 + 5 * es.length)
    ∧ (∀ es x, r.results = .regionStatus es x → payload.length = 4 + 30 * es.length + 9)
    ∧ ∀ info, r.results = .slotRead info → payload.length = 3 + 29)
  ∧ (∀ (n : Notice), (noticeBytes n).length = 32)
  ∧ (∀ (i : CurrentInfo), noticeBytes (.current i) = 0x01 :: currentBytes i)
  ∧ (∀ g : Region, (regionBytes g).length = 17)
  ∧ ∀ (l : Link) (s : State), TakesPackets s →
    ((s.port l).responses = [] → exec (.responseSent l) s = .next s)
    ∧ ∀ r rs, (s.port l).responses = r :: rs →
      ∃ t, exec (.responseSent l) s = .next t ∧ SameBut [.port l, .outputs] s t
        ∧ t.port l = { s.port l with responses := rs }
        ∧ t.outputs = { s.outputs with sent := s.outputs.sent.set l (responsePacket r) }

/-- How a notice is placed. A must-keep notice is appended, in place of the oldest MOVE when the queue is full, and lost
when the full queue holds no MOVE. A MOVE replaces the MOVE that is the most recent notice concerning its id; otherwise
it is dropped at 24 MOVEs or 32 notices, and appended when there is room. An OFFLINE link is handed nothing. ATTN is high
exactly while the queue holds a notice, and so after every notice handed to a link that is not OFFLINE. -/
def Obligations.NoticesArePlacedByKind : Prop :=
  ∀ (n : Notice) (p : Port),
    (p.state = .offline → handed n p = p)
    ∧ (attn p = true ↔ p.notices ≠ [])
    ∧ (p.state ≠ .offline → attn (handed n p) = true)
    ∧ (p.state ≠ .offline → n.isMove = false →
      (p.notices.length < 32 → handed n p = { p with notices := p.notices ++ [n] })
      ∧ (32 ≤ p.notices.length → (∀ m ∈ p.notices, m.isMove = false) →
          handed n p = Port.count .noticeLost 1 p)
      ∧ ∀ before m after, 32 ≤ p.notices.length → p.notices = before ++ m :: after → m.isMove = true →
          (∀ x ∈ before, x.isMove = false) →
          handed n p = Port.count .touchDropped 1 { p with notices := before ++ after ++ [n] })
    ∧ ∀ (c : TouchId) (tag u v : Nat) (epoch : Word), p.state ≠ .offline → n = .touch .move c tag u v epoch →
      (∀ before m after, p.notices = before ++ m :: after → m.isMove = true → m.concerns c = true →
          (∀ x ∈ after, x.concerns c = false) → handed n p = { p with notices := before ++ n :: after })
      ∧ ((∀ before m after, p.notices = before ++ m :: after → (∀ x ∈ after, x.concerns c = false) →
            m.concerns c = true → m.isMove = false) →
        ((24 ≤ p.notices.countP Notice.isMove ∨ 32 ≤ p.notices.length) →
          handed n p = Port.count .touchDropped 1 p)
        ∧ (p.notices.countP Notice.isMove < 24 → p.notices.length < 32 →
          handed n p = { p with notices := p.notices ++ [n] }))

/-- Bytes on a link: a header whose length is above 7452 is MALFORMED and the next packet begins behind it; a packet
whose CRC does not match adds to CRC_ERRORS; one whose kind or flags are undefined, or whose payload does not fit its
kind, is MALFORMED; a command of known code whose length is wrong is MALFORMED, or OVERRUN when there is no room for it
(log 10). Each completes by itself, and the packets behind it are then taken. An incomplete packet, whether its header or
what the header announces is not whole, has no effect. That BAD_PACKET carries bytes, and keeps none of an incomplete
packet, is the model's choice (log 14). -/
def Obligations.BadPacketsAreCounted : Prop :=
  ∀ (l : Link) (s : State), TakesPackets s →
    (∀ kind flags n1 n0, 7452 < (halfOf n1 n0).toNat →
      exec (.badPacket l [kind, flags, n1, n0]) s = .next (countOn l .malformed 1 s)
      ∧ ∀ rest, exec (.badPacket l (kind :: flags :: n1 :: n0 :: rest)) s
        = exec (.badPacket l rest) (countOn l .malformed 1 s))
    ∧ (∀ bytes : List Byte, bytes.length < 4 → exec (.badPacket l bytes) s = .next s)
    ∧ (∀ (kind flags n1 n0 : Byte) (rest : List Byte), (halfOf n1 n0).toNat ≤ 7452 →
      rest.length < (halfOf n1 n0).toNat + 2 → exec (.badPacket l (kind :: flags :: n1 :: n0 :: rest)) s = .next s)
    ∧ ∀ (kind flags n1 n0 c1 c0 : Byte) (payload : List Byte), payload.length = (halfOf n1 n0).toNat →
      payload.length ≤ 7452 →
      let body := kind :: flags :: n1 :: n0 :: payload
      let leaves (u : State) : Prop :=
        exec (.badPacket l (body ++ [c1, c0])) s = .next u
        ∧ ∀ after, exec (.badPacket l (body ++ c1 :: c0 :: after)) s = exec (.badPacket l after) u
      (halfOf c1 c0 ≠ crc body → leaves (countOn l .crcErrors 1 s))
      ∧ (halfOf c1 c0 = crc body →
        ((¬ ((kind = 1 ∧ flags = 0) ∨ (kind = 2 ∧ flags = 0) ∨ (kind = 3 ∧ (flags = 0 ∨ flags = 1)))
            ∨ (kind = 1 ∧ payload.length < 2) ∨ (kind = 3 ∧ payload.length ≠ 5)
            ∨ (kind = 2 ∧ (payload.length < 12
                ∨ payload.length ≠ 12 + 3 * (halfOf (payload.getD 10 0) (payload.getD 11 0)).toNat))) →
          leaves (countOn l .malformed 1 s))
        ∧ ∀ (tag : Byte) (c : Command) (params : List Byte), kind = 1 → flags = 0 →
            payload = tag :: commandCode c :: params → (∀ cutoff, decodeParams cutoff l tag c params = none) →
            (TakesCommand l s → leaves (countOn l .malformed 1 (arrive l s)))
            ∧ (8 ≤ (s.port l).responses.length → leaves (countOn l .overrun 1 (arrive l s))))

/-- The forward packets: for every command that is a packet, the bytes of its encoding pass every check of the receiving
link and spell that command with every field, whatever stands behind them; put through the checks alone they do what the
command does. RESUME's level of CUTOFF goes with it (log 3). -/
def Obligations.PacketDecodesToItsCommand : Prop :=
  ∀ (i : Instr) (l : Link) (bytes : List Byte) (cutoff : Bool), i.wellFormed = true → packetLink i = some l →
    encodePacket i = some bytes → carriesLevel cutoff i = true →
    (∀ rest : List Byte, verdict cutoff l (bytes ++ rest) = .valid i ∧ afterPacket (bytes ++ rest) = rest)
    ∧ ∀ s : State, s.cutoffInput = cutoff → exec (.badPacket l bytes) s = exec i s

/-! ## The laws every step keeps -/

/-- The laws of the ports and queues: at most 48 lines with HOLD as the depth asks, at most 32 notices of which at most
24 MOVEs and none while OFFLINE, at most 9 responses, an armed abort only beside a running command. -/
def Obligations.StepKeepsPortLaws : Prop :=
  ∀ s t : State, PortsOk s → step s = .next t → PortsOk t

/-- The laws of the posture monitor: thresholds in order, the dwell counter below DWELL and counting a candidate other
than the posture, values within range, a timeout running exactly while the sensor is OK. -/
def Obligations.StepKeepsPostureLaws : Prop :=
  ∀ s t : State, PostureOk s.posture → step s = .next t → PostureOk t.posture

/-- The laws of the slot table and the transition engine: every slot holds a layout that passes the commit checks, sorted;
the active epoch is at most the counter and below a pending epoch, which is the counter; the pending slot is not the
active one and its content is what was announced; ARMED exactly when the acknowledged set is the ack set; a requesting
link exactly where a SWITCH holds the slot. -/
def Obligations.StepKeepsSlotAndEngineLaws : Prop :=
  ∀ s t : State, SlotsOk s → EngineOk s → step s = .next t → SlotsOk t ∧ EngineOk t

/-- The law of the region store: no block is held by two buffers, every run lies in the store, and the pixel memory keeps
its canonical form. -/
def Obligations.StepKeepsStoreLaws : Prop :=
  ∀ s t : State, SlotsOk s → EngineOk s → StoreOk s → step s = .next t → StoreOk t

/-- The laws of the runtime records and the contact table: tags name one record of each layout, records hold the buffers
their content calls for, a record of the pending layout alone is CLOSED and never COMPLETE, and a BOUND contact names an
OPEN region of the active layout that its link owns. -/
def Obligations.StepKeepsRecordAndContactLaws : Prop :=
  ∀ s t : State, SlotsOk s → EngineOk s → RecordsOk s → ContactsOk s → step s = .next t → RecordsOk t ∧ ContactsOk t

/-- The part after a power-on reset meets every law that the steps keep. -/
def Obligations.ResetMeetsEveryLaw : Prop :=
  PortsOk State.reset ∧ PostureOk State.reset.posture ∧ SlotsOk State.reset ∧ EngineOk State.reset
    ∧ StoreOk State.reset ∧ RecordsOk State.reset ∧ ContactsOk State.reset
end

