-- ==== Sys2Proof/Laws/State.lean ====
section
/-! SUPPORT. What each update of the state leaves in each field: one lemma per field and update, true by unfolding. -/

namespace Sys2Proof

@[simp] theorem PerLink.get_set_same {α : Type} (p : PerLink α) (l : Link) (x : α) : (p.set l x).get l = x := by
  cases l <;> rfl

@[simp] theorem PerLink.get_set_other {α : Type} (p : PerLink α) (l : Link) (x : α) :
    (p.set l x).get l.other = p.get l.other := by cases l <;> rfl

theorem PerLink.get_set_ne {α : Type} (p : PerLink α) {l m : Link} (h : m ≠ l) (x : α) :
    (p.set l x).get m = p.get m := by cases l <;> cases m <;> first | rfl | exact absurd rfl h

@[simp] theorem PerLink.set_set {α : Type} (p : PerLink α) (l : Link) (x y : α) : (p.set l x).set l y = p.set l y := by
  cases l <;> rfl

@[simp] theorem PerLink.set_get {α : Type} (p : PerLink α) (l : Link) : p.set l (p.get l) = p := by cases l <;> rfl

@[simp] theorem Link.other_ne (l : Link) : l.other ≠ l := by cases l <;> decide

@[simp] theorem Link.ne_other (l : Link) : l ≠ l.other := by cases l <;> decide

@[simp] theorem Link.other_other (l : Link) : l.other.other = l := by cases l <;> rfl

theorem Link.eq_or_other (l m : Link) : m = l ∨ m = l.other := by cases l <;> cases m <;> decide

namespace Machine

/-! ## A port -/

section
variable (s : State) (l : Link) (f g : Port → Port)

@[simp] theorem modPort_slots : (s.modPort l f).slots = s.slots := rfl
@[simp] theorem modPort_posture : (s.modPort l f).posture = s.posture := rfl
@[simp] theorem modPort_engine : (s.modPort l f).engine = s.engine := rfl
@[simp] theorem modPort_store : (s.modPort l f).store = s.store := rfl
@[simp] theorem modPort_scan : (s.modPort l f).scan = s.scan := rfl
@[simp] theorem modPort_touch : (s.modPort l f).touch = s.touch := rfl
@[simp] theorem modPort_cutoffInput : (s.modPort l f).cutoffInput = s.cutoffInput := rfl
@[simp] theorem modPort_phase : (s.modPort l f).phase = s.phase := rfl
@[simp] theorem modPort_outputs : (s.modPort l f).outputs = s.outputs := rfl
@[simp] theorem modPort_pending : (s.modPort l f).pending = s.pending := rfl

@[simp] theorem port_modPort : (s.modPort l f).port l = f (s.port l) := by simp [State.port, State.modPort]

@[simp] theorem port_modPort_other : (s.modPort l f).port l.other = s.port l.other := by
  simp [State.port, State.modPort]

theorem port_modPort_ne {m : Link} (h : m ≠ l) : (s.modPort l f).port m = s.port m := by
  simp [State.port, State.modPort, PerLink.get_set_ne _ h]

@[simp] theorem modPort_modPort : (s.modPort l f).modPort l g = s.modPort l (fun p => g (f p)) := by
  simp [State.modPort, State.port]

@[simp] theorem modPort_id : s.modPort l (fun p => p) = s := by simp [State.modPort, State.port]

end

/-! ## The other blocks -/

section
variable (s : State)

@[simp] theorem modPosture_posture (f : PostureMonitor → PostureMonitor) : (modPosture f s).posture = f s.posture := rfl
@[simp] theorem modPosture_slots (f : PostureMonitor → PostureMonitor) : (modPosture f s).slots = s.slots := rfl
@[simp] theorem modPosture_engine (f : PostureMonitor → PostureMonitor) : (modPosture f s).engine = s.engine := rfl
@[simp] theorem modPosture_store (f : PostureMonitor → PostureMonitor) : (modPosture f s).store = s.store := rfl
@[simp] theorem modPosture_scan (f : PostureMonitor → PostureMonitor) : (modPosture f s).scan = s.scan := rfl
@[simp] theorem modPosture_touch (f : PostureMonitor → PostureMonitor) : (modPosture f s).touch = s.touch := rfl
@[simp] theorem modPosture_port (f : PostureMonitor → PostureMonitor) (l : Link) :
    (modPosture f s).port l = s.port l := rfl
@[simp] theorem modPosture_cutoffInput (f : PostureMonitor → PostureMonitor) :
    (modPosture f s).cutoffInput = s.cutoffInput := rfl
@[simp] theorem modPosture_phase (f : PostureMonitor → PostureMonitor) : (modPosture f s).phase = s.phase := rfl
@[simp] theorem modPosture_outputs (f : PostureMonitor → PostureMonitor) : (modPosture f s).outputs = s.outputs := rfl
@[simp] theorem modPosture_pending (f : PostureMonitor → PostureMonitor) : (modPosture f s).pending = s.pending := rfl

@[simp] theorem modScan_scan (f : Scan → Scan) : (modScan f s).scan = f s.scan := rfl
@[simp] theorem modScan_slots (f : Scan → Scan) : (modScan f s).slots = s.slots := rfl
@[simp] theorem modScan_posture (f : Scan → Scan) : (modScan f s).posture = s.posture := rfl
@[simp] theorem modScan_engine (f : Scan → Scan) : (modScan f s).engine = s.engine := rfl
@[simp] theorem modScan_store (f : Scan → Scan) : (modScan f s).store = s.store := rfl
@[simp] theorem modScan_touch (f : Scan → Scan) : (modScan f s).touch = s.touch := rfl
@[simp] theorem modScan_port (f : Scan → Scan) (l : Link) : (modScan f s).port l = s.port l := rfl
@[simp] theorem modScan_cutoffInput (f : Scan → Scan) : (modScan f s).cutoffInput = s.cutoffInput := rfl
@[simp] theorem modScan_phase (f : Scan → Scan) : (modScan f s).phase = s.phase := rfl
@[simp] theorem modScan_outputs (f : Scan → Scan) : (modScan f s).outputs = s.outputs := rfl
@[simp] theorem modScan_pending (f : Scan → Scan) : (modScan f s).pending = s.pending := rfl

@[simp] theorem setContact_slots (c : TouchId) (x : Contact) : (setContact c x s).slots = s.slots := rfl
@[simp] theorem setContact_posture (c : TouchId) (x : Contact) : (setContact c x s).posture = s.posture := rfl
@[simp] theorem setContact_engine (c : TouchId) (x : Contact) : (setContact c x s).engine = s.engine := rfl
@[simp] theorem setContact_store (c : TouchId) (x : Contact) : (setContact c x s).store = s.store := rfl
@[simp] theorem setContact_scan (c : TouchId) (x : Contact) : (setContact c x s).scan = s.scan := rfl
@[simp] theorem setContact_port (c : TouchId) (x : Contact) (l : Link) : (setContact c x s).port l = s.port l := rfl
@[simp] theorem setContact_cutoffInput (c : TouchId) (x : Contact) :
    (setContact c x s).cutoffInput = s.cutoffInput := rfl
@[simp] theorem setContact_phase (c : TouchId) (x : Contact) : (setContact c x s).phase = s.phase := rfl
@[simp] theorem setContact_outputs (c : TouchId) (x : Contact) : (setContact c x s).outputs = s.outputs := rfl
@[simp] theorem setContact_pending (c : TouchId) (x : Contact) : (setContact c x s).pending = s.pending := rfl

/-- The entry set reads as set, and every other as before. -/
theorem setContact_get (c d : TouchId) (x : Contact) :
    (setContact c x s).touch.contacts.get d = if d = c then x else s.touch.contacts.get d := by
  simp only [setContact, Vector.get_eq_getElem, Vector.getElem_set, Fin.ext_iff, eq_comm]

@[simp] theorem setLayout_engine (n : SlotNo) (x : Layout) : (setLayout n x s).engine = s.engine := rfl
@[simp] theorem setLayout_posture (n : SlotNo) (x : Layout) : (setLayout n x s).posture = s.posture := rfl
@[simp] theorem setLayout_store (n : SlotNo) (x : Layout) : (setLayout n x s).store = s.store := rfl
@[simp] theorem setLayout_scan (n : SlotNo) (x : Layout) : (setLayout n x s).scan = s.scan := rfl
@[simp] theorem setLayout_touch (n : SlotNo) (x : Layout) : (setLayout n x s).touch = s.touch := rfl
@[simp] theorem setLayout_port (n : SlotNo) (x : Layout) (l : Link) : (setLayout n x s).port l = s.port l := rfl

/-- The slot written reads as written, and every other as before. -/
theorem setLayout_get (n m : SlotNo) (x : Layout) :
    (setLayout n x s).slots.slots.get m = if m = n then x else s.slots.slots.get m := by
  simp only [setLayout, Vector.get_eq_getElem, Vector.getElem_set, Fin.ext_iff, eq_comm]

@[simp] theorem setStaging_slots (l : Link) (x : Option Staging) :
    (setStaging l x s).slots = { s.slots with staging := s.slots.staging.set l x } := rfl
@[simp] theorem setStaging_engine (l : Link) (x : Option Staging) : (setStaging l x s).engine = s.engine := rfl
@[simp] theorem setStaging_port (l m : Link) (x : Option Staging) : (setStaging l x s).port m = s.port m := rfl

@[simp] theorem updateRecord_slots (k : RuntimeRecord) (f : RuntimeRecord → RuntimeRecord) :
    (updateRecord k f s).slots = s.slots := rfl
@[simp] theorem updateRecord_posture (k : RuntimeRecord) (f : RuntimeRecord → RuntimeRecord) :
    (updateRecord k f s).posture = s.posture := rfl
@[simp] theorem updateRecord_store (k : RuntimeRecord) (f : RuntimeRecord → RuntimeRecord) :
    (updateRecord k f s).store = s.store := rfl
@[simp] theorem updateRecord_scan (k : RuntimeRecord) (f : RuntimeRecord → RuntimeRecord) :
    (updateRecord k f s).scan = s.scan := rfl
@[simp] theorem updateRecord_touch (k : RuntimeRecord) (f : RuntimeRecord → RuntimeRecord) :
    (updateRecord k f s).touch = s.touch := rfl
@[simp] theorem updateRecord_port (k : RuntimeRecord) (f : RuntimeRecord → RuntimeRecord) (l : Link) :
    (updateRecord k f s).port l = s.port l := rfl
@[simp] theorem updateRecord_phase (k : RuntimeRecord) (f : RuntimeRecord → RuntimeRecord) :
    (updateRecord k f s).phase = s.phase := rfl
@[simp] theorem updateRecord_outputs (k : RuntimeRecord) (f : RuntimeRecord → RuntimeRecord) :
    (updateRecord k f s).outputs = s.outputs := rfl
@[simp] theorem updateRecord_cutoffInput (k : RuntimeRecord) (f : RuntimeRecord → RuntimeRecord) :
    (updateRecord k f s).cutoffInput = s.cutoffInput := rfl
@[simp] theorem updateRecord_pending (k : RuntimeRecord) (f : RuntimeRecord → RuntimeRecord) :
    (updateRecord k f s).pending = s.pending := rfl

end

end Machine

end Sys2Proof
end

