-- ==== Sys2Proof/Laws/Ops.lean ====
section
/-! SUPPORT. What each shared operation can do, said once: its frame, and what it leaves in the ports. -/

namespace Sys2Proof.Machine

/-! ## The frame relation -/

theorem SameBut.refl (changed : List Part) (s : State) : SameBut changed s s := by
  intro p _; cases p <;> rfl

theorem SameBut.mono {c d : List Part} {s t : State} (h : SameBut c s t) (hcd : ∀ p ∈ c, p ∈ d) : SameBut d s t :=
  fun p hp => h p (fun hc => hp (hcd p hc))

theorem SameBut.trans {c : List Part} {s t u : State} (h1 : SameBut c s t) (h2 : SameBut c t u) : SameBut c s u := by
  intro p hp
  have a := h1 p hp
  have b := h2 p hp
  cases p <;> exact b.trans a

section
variable {c : List Part} {s t : State} (h : SameBut c s t)
include h

theorem SameBut.slots (hc : Part.slots ∉ c) : t.slots = s.slots := h _ hc
theorem SameBut.posture (hc : Part.posture ∉ c) : t.posture = s.posture := h _ hc
theorem SameBut.engine (hc : Part.engine ∉ c) : t.engine = s.engine := h _ hc
theorem SameBut.store (hc : Part.store ∉ c) : t.store = s.store := h _ hc
theorem SameBut.scan (hc : Part.scan ∉ c) : t.scan = s.scan := h _ hc
theorem SameBut.touch (hc : Part.touch ∉ c) : t.touch = s.touch := h _ hc
theorem SameBut.port (l : Link) (hc : Part.port l ∉ c) : t.port l = s.port l := h _ hc
theorem SameBut.cutoffInput (hc : Part.cutoffInput ∉ c) : t.cutoffInput = s.cutoffInput := h _ hc
theorem SameBut.phase (hc : Part.phase ∉ c) : t.phase = s.phase := h _ hc
theorem SameBut.outputs (hc : Part.outputs ∉ c) : t.outputs = s.outputs := h _ hc
theorem SameBut.queue (hc : Part.queue ∉ c) : t.pending = s.pending := h _ hc

end

/-- Two states that agree in every part are one. -/
theorem state_ext {s t : State} (h : SameBut [] s t) : t = s := by
  have hp : t.ports = s.ports := by
    have ha : t.port .a = s.port .a := h.port .a (by simp)
    have hb : t.port .b = s.port .b := h.port .b (by simp)
    cases ht : t.ports; cases hs : s.ports
    simp only [State.port, PerLink.get, ht, hs] at ha hb
    rw [ha, hb]
  cases s; cases t
  have h1 := h.slots (by simp); have h2 := h.posture (by simp); have h3 := h.engine (by simp)
  have h4 := h.store (by simp); have h5 := h.scan (by simp); have h6 := h.touch (by simp)
  have h7 := h.cutoffInput (by simp); have h8 := h.phase (by simp); have h9 := h.outputs (by simp)
  have h10 := h.queue (by simp)
  simp only at h1 h2 h3 h4 h5 h6 h7 h8 h9 h10 hp
  subst h1 h2 h3 h4 h5 h6 h7 h8 h9 h10 hp
  rfl

/-! ## Operations on one port -/

theorem modPort_sameBut (l : Link) (f : Port → Port) (s : State) : SameBut [.port l] s (s.modPort l f) := by
  intro p hp
  cases p with
  | port m =>
    have : m ≠ l := fun h => hp (by simp [h])
    exact port_modPort_ne s l f this
  | _ => rfl

theorem countOn_sameBut (l : Link) (k : CounterName) (n : Nat) (s : State) : SameBut [.port l] s (countOn l k n s) :=
  modPort_sameBut l _ s

@[simp] theorem countOn_port (l : Link) (k : CounterName) (n : Nat) (s : State) :
    (countOn l k n s).port l = Port.count k n (s.port l) := by simp [countOn]

/-- A notice for a link changes that link's port alone. -/
theorem notify_eq (l : Link) (n : Notice) (s : State) : notify l n s = s.modPort l (handed n) := rfl

theorem notify_sameBut (l : Link) (n : Notice) (s : State) : SameBut [.port l] s (notify l n s) :=
  modPort_sameBut l _ s

@[simp] theorem notify_port (l : Link) (n : Notice) (s : State) : (notify l n s).port l = handed n (s.port l) := by
  simp [notify_eq]

@[simp] theorem notify_port_other (l : Link) (n : Notice) (s : State) :
    (notify l n s).port l.other = s.port l.other := by simp [notify_eq]

/-- A notice for both links is handed to each on its own. -/
theorem notifyBoth_port (n : Notice) (s : State) (l : Link) : (notifyBoth n s).port l = handed n (s.port l) := by
  cases l
  · exact (notify_port_other .b n (notify .a n s)).trans (notify_port .a n s)
  · exact (notify_port .b n (notify .a n s)).trans (congrArg (handed n) (notify_port_other .a n s))

theorem notifyBoth_sameBut (n : Notice) (s : State) : SameBut [.port .a, .port .b] s (notifyBoth n s) :=
  ((notify_sameBut .a n s).mono (by simp)).trans ((notify_sameBut .b n _).mono (by simp))

/-- A response changes its link's port alone: it stands last. -/
theorem respond_sameBut (l : Link) (tag code : Byte) (st : Status) (r : Results) (s : State) :
    SameBut [.port l] s (respond l tag code st r s) := modPort_sameBut l _ s

@[simp] theorem respond_port (l : Link) (tag code : Byte) (st : Status) (r : Results) (s : State) :
    (respond l tag code st r s).port l =
      { s.port l with
        responses := (s.port l).responses ++ [{ tag := tag, code := code, status := st, results := r }] } := by
  simp [respond]

theorem answer_sameBut (l : Link) (tag : Byte) (c : Command) (st : Status) (r : Results) (s : State) :
    SameBut [.port l] s (answer l tag c st r s) := respond_sameBut l tag _ st r s

@[simp] theorem answer_port (l : Link) (tag : Byte) (c : Command) (st : Status) (r : Results) (s : State) :
    (answer l tag c st r s).port l =
      { s.port l with
        responses := (s.port l).responses
          ++ [{ tag := tag, code := commandCode c, status := st, results := r }] } := by
  simp [answer]

theorem emptySlot_sameBut (l : Link) (s : State) : SameBut [.port l] s (emptySlot l s) := modPort_sameBut l _ s

@[simp] theorem emptySlot_port (l : Link) (s : State) :
    (emptySlot l s).port l = { s.port l with slot := none, armed := none } := by simp [emptySlot]

/-- What ending the running command leaves in its port. -/
theorem finish_port (l : Link) (st : Status) (res : Results) (s : State) :
    (finish l st res s).port l =
      match (s.port l).slot with
      | none => s.port l
      | some r => { s.port l with
          slot := none, armed := none
          responses := (s.port l).responses ++ [{ tag := r.tag, code := r.code, status := st, results := res }] } := by
  unfold finish; split <;> simp_all

theorem finish_sameBut (l : Link) (st : Status) (res : Results) (s : State) :
    SameBut [.port l] s (finish l st res s) := by
  unfold finish; split
  · exact SameBut.refl _ s
  · exact (respond_sameBut l _ _ _ _ s).trans (emptySlot_sameBut l _)

/-! ## Arrival -/

theorem arrive_sameBut (l : Link) (s : State) : SameBut [.port l] s (arrive l s) := by
  unfold arrive; split
  · exact (modPort_sameBut l _ s).trans (notify_sameBut l _ _)
  · exact modPort_sameBut l _ s

section
variable (s : State) (l : Link)

@[simp] theorem arrive_slots : (arrive l s).slots = s.slots := (arrive_sameBut l s).slots (by simp)
@[simp] theorem arrive_posture : (arrive l s).posture = s.posture := (arrive_sameBut l s).posture (by simp)
@[simp] theorem arrive_engine : (arrive l s).engine = s.engine := (arrive_sameBut l s).engine (by simp)
@[simp] theorem arrive_store : (arrive l s).store = s.store := (arrive_sameBut l s).store (by simp)
@[simp] theorem arrive_scan : (arrive l s).scan = s.scan := (arrive_sameBut l s).scan (by simp)
@[simp] theorem arrive_touch : (arrive l s).touch = s.touch := (arrive_sameBut l s).touch (by simp)
@[simp] theorem arrive_cutoffInput : (arrive l s).cutoffInput = s.cutoffInput :=
  (arrive_sameBut l s).cutoffInput (by simp)
@[simp] theorem arrive_phase : (arrive l s).phase = s.phase := (arrive_sameBut l s).phase (by simp)
@[simp] theorem arrive_outputs : (arrive l s).outputs = s.outputs := (arrive_sameBut l s).outputs (by simp)
@[simp] theorem arrive_pending : (arrive l s).pending = s.pending := (arrive_sameBut l s).queue (by simp)
@[simp] theorem arrive_port_other : (arrive l s).port l.other = s.port l.other :=
  (arrive_sameBut l s).port _ (by simp)

end

/-- Placing a notice changes nothing of a port but its notices and counters. -/
theorem placeNotice_port (n : Notice) (p : Port) :
    placeNotice n p = { p with notices := (placeNotice n p).notices, counters := (placeNotice n p).counters } := by
  unfold placeNotice placeMove placeKeep
  repeat' split
  all_goals rfl

theorem handed_port (n : Notice) (p : Port) :
    handed n p = { p with notices := (handed n p).notices, counters := (handed n p).counters } := by
  unfold handed; split
  · rfl
  · exact placeNotice_port n p

/-- A valid packet leaves its port ONLINE with quiet counter 0 and, for the rest, changes its notices and counters
alone. -/
theorem arrive_port (l : Link) (s : State) :
    (arrive l s).port l = { s.port l with
      state := .online, quiet := 0
      notices := ((arrive l s).port l).notices, counters := ((arrive l s).port l).counters } := by
  unfold arrive; split
  · rw [notify_port, handed_port]; simp [comeOnline]
  · simp [comeOnline]

section
variable (s : State) (l : Link)

@[simp] theorem arrive_port_state : ((arrive l s).port l).state = .online := by rw [arrive_port]
@[simp] theorem arrive_port_quiet : ((arrive l s).port l).quiet = 0 := by rw [arrive_port]
@[simp] theorem arrive_port_quietFrames : ((arrive l s).port l).quietFrames = (s.port l).quietFrames := by
  rw [arrive_port]
@[simp] theorem arrive_port_slot : ((arrive l s).port l).slot = (s.port l).slot := by rw [arrive_port]
@[simp] theorem arrive_port_armed : ((arrive l s).port l).armed = (s.port l).armed := by rw [arrive_port]
@[simp] theorem arrive_port_stream : ((arrive l s).port l).stream = (s.port l).stream := by rw [arrive_port]
@[simp] theorem arrive_port_hold : ((arrive l s).port l).hold = (s.port l).hold := by rw [arrive_port]
@[simp] theorem arrive_port_responses : ((arrive l s).port l).responses = (s.port l).responses := by rw [arrive_port]

end

/-! ## The order in which a packet is handled -/

theorem unlessHeld_running {s : State} (h : TakesPackets s) (e : State → State) : unlessHeld e s = e s := by
  simp [unlessHeld, held, h]

theorem unlessHeld_inReset {s : State} (h : s.phase ≠ .running) (e : State → State) : unlessHeld e s = s := by
  simp [unlessHeld, held, h]

theorem takePacket_running {s : State} (h : TakesPackets s) (l : Link) (e : State → State) :
    takePacket l e s = e (arrive l s) := unlessHeld_running h _

theorem takeCommand_taken {s : State} {l : Link} (h : TakesCommand l s) (e : State → State) :
    takeCommand l e s = e (arrive l s) := by
  unfold takeCommand
  rw [takePacket_running h.1]
  have : noRoom l (arrive l s) = false := by simpa [noRoom, Config.responseRoom] using h.2
  simp [this]

/-- A command that finds its slot empty is run on the state its arrival leaves. -/
theorem slotCommand_free {s : State} {l : Link} (h : SlotFree l s) (tag : Byte) (c : Command) (e : State → State) :
    slotCommand l tag c e s = e (arrive l s) := by
  unfold slotCommand
  rw [takeCommand_taken h.1]
  simp [h.2]

/-- A command that finds its slot occupied is refused with BUSY. -/
theorem slotCommand_busy {s : State} {l : Link} (h : TakesCommand l s) {r : Running} (hr : (s.port l).slot = some r)
    (tag : Byte) (c : Command) (e : State → State) :
    slotCommand l tag c e s = answer l tag c .busy (.running r) (arrive l s) := by
  unfold slotCommand
  rw [takeCommand_taken h]
  simp [hr]

/-- A command that finds no room for its response is counted OVERRUN. -/
theorem takeCommand_full {s : State} {l : Link} (h : TakesPackets s) (hr : 8 ≤ (s.port l).responses.length)
    (e : State → State) : takeCommand l e s = countOn l .overrun 1 (arrive l s) := by
  unfold takeCommand
  rw [takePacket_running h]
  have : noRoom l (arrive l s) = true := by simpa [noRoom, Config.responseRoom] using hr
  simp [this]

/-- A command refused with a status changes its link's port alone, and answers. -/
theorem refusedWith_answer (l : Link) (tag : Byte) (c : Command) (st : Status) (r : Results) (s : State) :
    RefusedWith l tag c st r s (answer l tag c st r (arrive l s)) :=
  ⟨(arrive_sameBut l s).trans (answer_sameBut l tag c st r _), by simp [AnswersWith]⟩

/-- An answer behind an effect that left the arrived port alone. -/
theorem answersWith_answer {l : Link} {s t : State} (h : t.port l = (arrive l s).port l) (tag : Byte) (c : Command)
    (st : Status) (r : Results) : AnswersWith l tag c st r s (answer l tag c st r t) := by
  simp [AnswersWith, h]

end Sys2Proof.Machine
end

