-- ==== Sys2Proof/Laws/Scan.lean ====
section
/-! SUPPORT. How a row is put together: its segments in column order, what each column of it shows, and what it changes;
the rows that are left of a frame. -/

namespace Sys2Proof.Machine

/-- Segments in order from a column on, within the panel. -/
def SegsFrom (col : Nat) : List (Nat × List Colour) → Prop
  | [] => col ≤ 2480
  | (c, px) :: rest => col ≤ c ∧ SegsFrom (c + px.length) rest

/-- The row fills the panel's width. -/
theorem assemble_len (b : Colour) : ∀ (segs : List (Nat × List Colour)) (col : Nat), SegsFrom col segs →
    (assembleRow b col segs).length = 2480 - col ∧ col ≤ 2480 := by
  intro segs; induction segs with
  | nil => intro col h; simp [assembleRow, Config.panelColumns]; exact h
  | cons x xs ih =>
    obtain ⟨c, px⟩ := x
    intro col h
    obtain ⟨h1, h2⟩ := h
    obtain ⟨h3, h4⟩ := ih _ h2
    simp [assembleRow, h3]; omega

/-- A column in no segment shows the backdrop. -/
theorem assemble_gap (b : Colour) : ∀ (segs : List (Nat × List Colour)) (col x : Nat), SegsFrom col segs →
    col ≤ x → x < 2480 →
    (∀ p ∈ segs, ¬ (p.1 ≤ x ∧ x < p.1 + p.2.length)) → (assembleRow b col segs)[x - col]? = some b := by
  intro segs; induction segs with
  | nil =>
    intro col x h h1 h2 _
    simp only [assembleRow, Config.panelColumns]
    rw [List.getElem?_replicate, if_pos (by omega)]
  | cons y ys ih =>
    obtain ⟨c, px⟩ := y
    intro col x h h1 h2 hn
    obtain ⟨k1, k2⟩ := h
    have hc := hn (c, px) (by simp)
    simp only at hc
    by_cases hx : x < c
    · simp only [assembleRow]
      rw [List.append_assoc, List.getElem?_append_left (by simp; omega), List.getElem?_replicate, if_pos (by omega)]
    · simp only [assembleRow]
      rw [List.getElem?_append_right (by simp; omega)]
      have := ih (c + px.length) x k2 (by omega) h2 (fun p hp => hn p (by simp [hp]))
      rw [← this]; congr 1; simp; omega
/-- A column of a segment shows that segment's pixel. -/
theorem assemble_at (b : Colour) : ∀ (segs : List (Nat × List Colour)) (col x : Nat) (p : Nat × List Colour),
    SegsFrom col segs → p ∈ segs →
    p.1 ≤ x → x < p.1 + p.2.length → (assembleRow b col segs)[x - col]? = p.2[x - p.1]? := by
  intro segs; induction segs with
  | nil => intro col x p _ h; simp at h
  | cons y ys ih =>
    obtain ⟨c, px⟩ := y
    intro col x p h hp h1 h2
    obtain ⟨k1, k2⟩ := h
    simp only [assembleRow]
    have low : ∀ (qs : List (Nat × List Colour)) (e : Nat), SegsFrom e qs → p ∈ qs → e ≤ p.1 := by
      intro qs; induction qs with
      | nil => intro e _ h; simp at h
      | cons q qs ihq =>
        intro e h hp; obtain ⟨a, bb⟩ := q; obtain ⟨u, v⟩ := h
        rcases List.mem_cons.1 hp with rfl | hp
        · exact u
        · have := ihq _ v hp; simp at *; omega
    rcases List.mem_cons.1 hp with rfl | hp
    · simp only at h1 h2
      rw [List.append_assoc, List.getElem?_append_right (by simp; omega), List.getElem?_append_left (by simp; omega)]
      congr 1; simp; omega
    · have := low _ _ k2 hp
      rw [List.getElem?_append_right (by simp; omega), ← ih (c + px.length) x p k2 hp h1 h2]
      congr 1; simp; omega

theorem insertByColumn_perm (x : RuntimeRecord) (ys : List RuntimeRecord) : (insertByColumn x ys).Perm (x :: ys) := by
  induction ys with
  | nil => exact .refl _
  | cons y ys ih => simp only [insertByColumn]; split
                    · exact .refl _
                    · exact (ih.cons y).trans (.swap x y ys)
theorem insertByColumn_sorted (x : RuntimeRecord) (ys : List RuntimeRecord)
    (h : ys.Pairwise (fun a b => a.region.col0 ≤ b.region.col0)) :
    (insertByColumn x ys).Pairwise (fun a b => a.region.col0 ≤ b.region.col0) := by
  induction ys with
  | nil => simp [insertByColumn]
  | cons y ys ih =>
    simp only [insertByColumn]
    obtain ⟨h1, h2⟩ := List.pairwise_cons.1 h
    split
    · rename_i hle
      refine List.pairwise_cons.2 ⟨fun z hz => ?_, h⟩
      rcases List.mem_cons.1 hz with rfl | hz
      · exact hle
      · exact hle.trans (h1 z hz)
    · refine List.pairwise_cons.2 ⟨fun z hz => ?_, ih h2⟩
      rcases List.mem_cons.1 ((insertByColumn_perm x ys).mem_iff.1 hz) with rfl | hz
      · omega
      · exact h1 z hz
/-- The segments of a row are the active records that cross it. -/
theorem rowSegments_perm (r : Nat) (e : Engine) :
    (rowSegments r e).Perm ((activeRecords e).filter (fun q => crossesRow r q.region)) := by
  unfold rowSegments
  induction (activeRecords e).filter (fun q => crossesRow r q.region) with
  | nil => exact .refl _
  | cons y ys ih => exact (insertByColumn_perm y _).trans (ih.cons y)
/-- The segments of a row stand in ascending order of column. -/
theorem rowSegments_sorted (r : Nat) (e : Engine) :
    (rowSegments r e).Pairwise (fun a b => a.region.col0 ≤ b.region.col0) := by
  unfold rowSegments
  induction (activeRecords e).filter (fun q => crossesRow r q.region) with
  | nil => simp
  | cons y ys ih => exact insertByColumn_sorted y _ ih

/-- A consumed line was judged so. -/
theorem examine_consumed (e : Engine) (fr : Word) (l : Link) (row col : Nat) :
    ∀ q x, (examine e fr l row col q).consumed = some x → judge e fr l row col x = .consume := by
  intro q; induction q with
  | nil => intro x h; simp [examine] at h
  | cons p ps ih =>
    intro x h; simp only [examine] at h
    split at h
    · simp at h
    · simp at h; subst h; assumption
    · exact ih x h

/-! ## What a segment and a row change -/

theorem examineOn_sameBut (l : Link) (row col : Nat) (s : State) : SameBut [.port l] s (examineOn l row col s).1 := by
  exact modPort_sameBut l (fun p => Port.count .stale _ (p.setStream _)) s

/-- The examinations at a position leave a link's port with what is left of its queue. -/
theorem examineOn_port (l : Link) (row col : Nat) (s : State) :
    let x := examine s.engine s.scan.frame l row col (s.port l).stream
    (examineOn l row col s).1.port l = Port.count .stale x.discarded ((s.port l).setStream x.queue) := by
  simp [examineOn]

theorem updateRecord_sameBut (k : RuntimeRecord) (f : RuntimeRecord → RuntimeRecord) (s : State) :
    SameBut [.engine] s (updateRecord k f s) := by
  intro q hq; cases q <;> first | rfl | exact absurd (by simp) hq

theorem scanStreamed_sameBut (l : Link) (row : Nat) (r : RuntimeRecord) (s : State) :
    SameBut [.engine, .port l] s (scanStreamed l row r s).1 := by
  have h := (examineOn_sameBut l row r.region.col0 s).mono (d := [.engine, .port l]) (by simp)
  unfold scanStreamed
  split
  · rename_i s1 p e; rw [e] at h
    exact h.trans ((updateRecord_sameBut r openGate s1).mono (by simp))
  · rename_i s1 e; rw [e] at h
    refine h.trans ?_
    unfold countLate; split
    · exact (countOn_sameBut l .late 1 s1).mono (by simp)
    · exact SameBut.refl _ _

theorem scanSegment_sameBut (row : Nat) (r : RuntimeRecord) (s : State) :
    SameBut [.engine, .port .a, .port .b] s (scanSegment row r s).1 := by
  unfold scanSegment; split
  · exact SameBut.refl _ _
  · rename_i l _ _; exact (scanStreamed_sameBut l row r s).mono (by cases l <;> simp)
  · exact SameBut.refl _ _

theorem scanSegments_sameBut (row : Nat) (rs : List RuntimeRecord) (s : State) :
    SameBut [.engine, .port .a, .port .b] s (scanSegments row rs s).1 := by
  induction rs generalizing s with
  | nil => exact SameBut.refl _ _
  | cons r rs ih => exact (scanSegment_sameBut row r s).trans (ih _)

/-- A row changes the current row and the row sent, the queues and the gates, and nothing else. -/
theorem scanRow_sameBut (row : Nat) (s : State) :
    SameBut [.engine, .scan, .port .a, .port .b, .outputs] s (scanRow row s) := by
  have h : SameBut [.engine, .scan, .port .a, .port .b, .outputs] s
      (endOfRow .b row (endOfRow .a row (scanSegments row (rowSegments row s.engine) s).1)) :=
    ((scanSegments_sameBut row _ s).mono (by simp)).trans
      (((examineOn_sameBut .a row _ _).mono (by simp)).trans ((examineOn_sameBut .b row _ _).mono (by simp)))
  refine h.trans ?_
  intro q hq; cases q <;> first | rfl | exact absurd (by simp) hq

theorem endOfRow_scan (l : Link) (row : Nat) (s : State) : (endOfRow l row s).scan = s.scan := rfl

theorem scanRow_scan (row : Nat) (s : State) : (scanRow row s).scan = { s.scan with row := rowAfter row } := by
  have h := (scanSegments_sameBut row (rowSegments row s.engine) s).scan (by simp)
  simp [scanRow, endOfRow_scan, h]

/-! ## The rows that are left of a frame -/

theorem scanRowsLeft_blanking {s : State} (h : s.scan.row = none) (n : Nat) : scanRowsLeft n s = s := by
  cases n <;> simp [scanRowsLeft, h]

/-- How many rows are left of the current frame. -/
def rowsLeft (s : State) : Nat :=
  match s.scan.row with
  | none => 0
  | some row => 2199 - row + 1

theorem rowAfter_left (row : Nat) :
    rowAfter row = if row < 2199 then some (row + 1) else none := by
  unfold rowAfter Config.panelRows; split <;> split <;> first | rfl | omega

theorem rowsLeft_scanRow {row : Nat} {s : State} (h : s.scan.row = some row) :
    rowsLeft (scanRow row s) + 1 = rowsLeft s := by
  simp only [rowsLeft, scanRow_scan, h, rowAfter_left]
  by_cases hr : row < 2199
  · rw [if_pos hr]; simp only; omega
  · rw [if_neg hr]; simp only; omega

theorem scanRowsLeft_succ {row : Nat} {s : State} (h : s.scan.row = some row) (n : Nat) :
    scanRowsLeft (n + 1) s = scanRowsLeft n (scanRow row s) := by
  simp [scanRowsLeft, h]

/-- More than the rows left makes no difference. -/
theorem scanRowsLeft_fuel (n : Nat) : ∀ s, rowsLeft s ≤ n → ∀ m, n ≤ m → scanRowsLeft m s = scanRowsLeft n s := by
  induction n with
  | zero =>
    intro s h m _
    have : s.scan.row = none := by
      unfold rowsLeft at h; split at h
      · assumption
      · omega
    rw [scanRowsLeft_blanking this, scanRowsLeft_blanking this]
  | succ n ih =>
    intro s h m hm
    obtain ⟨m, rfl⟩ : ∃ k, m = k + 1 := ⟨m - 1, by omega⟩
    cases hr : s.scan.row with
    | none => rw [scanRowsLeft_blanking hr, scanRowsLeft_blanking hr]
    | some row =>
      have := rowsLeft_scanRow hr
      rw [scanRowsLeft_succ hr, scanRowsLeft_succ hr]
      exact ih _ (by omega) m (by omega)

theorem rowsLeft_le (s : State) : rowsLeft s ≤ 2200 := by
  unfold rowsLeft; split <;> omega

theorem finishFrame_blanking {s : State} (h : s.scan.row = none) : finishFrame s = s := scanRowsLeft_blanking h _

/-- A frame is finished row by row (R105). -/
theorem finishFrame_scanRow {row : Nat} {s : State} (h : s.scan.row = some row) :
    finishFrame s = finishFrame (scanRow row s) := by
  have hr := rowsLeft_scanRow h
  have hl := rowsLeft_le s
  have h1 : finishFrame s = scanRowsLeft 2199 (scanRow row s) := scanRowsLeft_succ h 2199
  rw [h1]
  exact (scanRowsLeft_fuel 2199 _ (by omega) _ (by decide)).symm

theorem scanRowsLeft_sameBut (n : Nat) (s : State) :
    SameBut [.engine, .scan, .port .a, .port .b, .outputs] s (scanRowsLeft n s) := by
  induction n generalizing s with
  | zero => exact SameBut.refl _ _
  | succ n ih =>
    unfold scanRowsLeft; split
    · exact SameBut.refl _ _
    · exact (scanRow_sameBut _ s).trans (ih _)

theorem finishFrame_sameBut (s : State) :
    SameBut [.engine, .scan, .port .a, .port .b, .outputs] s (finishFrame s) := scanRowsLeft_sameBut _ s

theorem scanRowsLeft_row (n : Nat) (s : State) (h : rowsLeft s ≤ n) :
    (scanRowsLeft n s).scan = { s.scan with row := none } := by
  induction n generalizing s with
  | zero =>
    have : s.scan.row = none := by
      unfold rowsLeft at h; split at h
      · assumption
      · omega
    rw [scanRowsLeft_blanking this, ← this]
  | succ n ih =>
    cases hr : s.scan.row with
    | none => rw [scanRowsLeft_blanking hr, ← hr]
    | some row =>
      have := rowsLeft_scanRow hr
      rw [scanRowsLeft_succ hr, ih _ (by omega), scanRow_scan]

/-- A finished frame stands in BLANKING, the scan engine otherwise as it was (R105). -/
theorem finishFrame_scan (s : State) : (finishFrame s).scan = { s.scan with row := none } :=
  scanRowsLeft_row _ s (rowsLeft_le s)

end Sys2Proof.Machine
end

