-- ==== Sys2Proof/Laws/Transitions.lean ====
section
/-! SUPPORT. What the transition engine's shared operations can do: cancelling contacts, ending a WAIT, a withdrawal,
an abort, and which parts of the state each leaves alone. -/

namespace Sys2Proof.Machine

/-! ## Handing several notices -/

@[simp] theorem handedAll_nil (p : Port) : handedAll [] p = p := rfl

@[simp] theorem handedAll_cons (n : Notice) (ns : List Notice) (p : Port) :
    handedAll (n :: ns) p = handedAll ns (handed n p) := rfl

theorem handedAll_append (ms ns : List Notice) (p : Port) :
    handedAll (ms ++ ns) p = handedAll ns (handedAll ms p) := by
  simp [handedAll]

/-- A notice changes the queue and the counters of a port, and nothing else of it. -/
theorem handed_fields (n : Notice) (p : Port) :
    (handed n p).state = p.state ∧ (handed n p).quiet = p.quiet ∧ (handed n p).quietFrames = p.quietFrames
      ∧ (handed n p).slot = p.slot ∧ (handed n p).armed = p.armed ∧ (handed n p).stream = p.stream
      ∧ (handed n p).hold = p.hold ∧ (handed n p).responses = p.responses := by
  rw [handed_port]; simp

theorem handedAll_fields (ns : List Notice) (p : Port) :
    (handedAll ns p).state = p.state ∧ (handedAll ns p).quiet = p.quiet ∧ (handedAll ns p).quietFrames = p.quietFrames
      ∧ (handedAll ns p).slot = p.slot ∧ (handedAll ns p).armed = p.armed ∧ (handedAll ns p).stream = p.stream
      ∧ (handedAll ns p).hold = p.hold ∧ (handedAll ns p).responses = p.responses := by
  induction ns generalizing p with
  | nil => simp
  | cons n ns ih =>
    have h1 := ih (handed n p); have h2 := handed_fields n p
    simp only [handedAll_cons]
    exact ⟨h1.1.trans h2.1, h1.2.1.trans h2.2.1, h1.2.2.1.trans h2.2.2.1, h1.2.2.2.1.trans h2.2.2.2.1,
      h1.2.2.2.2.1.trans h2.2.2.2.2.1, h1.2.2.2.2.2.1.trans h2.2.2.2.2.2.1,
      h1.2.2.2.2.2.2.1.trans h2.2.2.2.2.2.2.1, h1.2.2.2.2.2.2.2.trans h2.2.2.2.2.2.2.2⟩

/-! ## Cancelling contacts -/

/-- The contacts and ports after one contact is cancelled or kept. -/
theorem cancelContact_sameBut (reason : CancelReason) (keep : List Nat) (s : State) (c : TouchId) :
    SameBut [.touch, .port .a, .port .b] s (cancelContact reason keep s c) := by
  unfold cancelContact
  split
  · split
    · exact SameBut.refl _ _
    · rename_i tag owner u v _ _
      refine SameBut.trans (t := notify owner (.cancel c tag u v s.engine.activeEpoch reason) s)
        ((notify_sameBut _ _ _).mono (by cases owner <;> simp)) ?_
      intro p hp; cases p <;> first | rfl | exact absurd (by simp) hp
  · exact SameBut.refl _ _

theorem cancelContact_contacts (reason : CancelReason) (keep : List Nat) (s : State) (c d : TouchId) :
    (cancelContact reason keep s c).touch.contacts.get d =
      if d = c then contactAfterCancel keep (s.touch.contacts.get d) else s.touch.contacts.get d := by
  unfold cancelContact contactAfterCancel
  by_cases hd : d = c
  · subst hd
    rw [if_pos rfl]
    split
    · rename_i h; simp only [h]
      split
      · rename_i hk; simp [h, List.contains_iff_mem.1 hk]
      · rename_i hk; rw [setContact_get, if_pos rfl, if_neg (by simpa using hk)]
    · rename_i h
      first
        | rfl
        | (split
           · rename_i h'; exact absurd h' (h _ _ _ _)
           · rfl)
  · rw [if_neg hd]
    split
    · split
      · rfl
      · rw [setContact_get, if_neg hd]; simp [notify_eq]
    · rfl

theorem cancelContact_touch (reason : CancelReason) (keep : List Nat) (s : State) (c : TouchId) :
    (cancelContact reason keep s c).touch =
      { s.touch with contacts := (cancelContact reason keep s c).touch.contacts } := by
  unfold cancelContact
  split
  · split
    · rfl
    · simp [setContact, notify_eq]
  · rfl

/-- The CANCEL notice that one contact brings a link, if any. -/
def cancelFor (l : Link) (reason : CancelReason) (epoch : Word) (kept : List Nat) (v : Vector Contact 10)
    (c : TouchId) : Option Notice :=
  match v.get c with
  | .bound tag owner x y => if owner = l ∧ tag ∉ kept then some (.cancel c tag x y epoch reason) else none
  | _ => none

theorem cancelsFor_eq (l : Link) (reason : CancelReason) (epoch : Word) (kept : List Nat) (v : Vector Contact 10) :
    cancelsFor l reason epoch kept v = touchIds.filterMap (cancelFor l reason epoch kept v) := rfl

theorem cancelContact_port (reason : CancelReason) (keep : List Nat) (s : State) (c : TouchId) (l : Link) :
    (cancelContact reason keep s c).port l =
      handedAll (cancelFor l reason s.engine.activeEpoch keep s.touch.contacts c).toList (s.port l) := by
  unfold cancelContact cancelFor
  cases s.touch.contacts.get c with
  | free => rfl
  | discard => rfl
  | bound tag owner u v =>
    by_cases hk : tag ∈ keep
    · simp [hk]
    · by_cases ho : owner = l
      · subst ho; simp [hk]
      · simp [hk, ho, notify_eq, port_modPort_ne s owner _ (Ne.symm ho)]

/-- Several contacts, one after another. -/
theorem cancelMany (reason : CancelReason) (keep : List Nat) : ∀ (ids : List TouchId) (s : State), ids.Nodup →
    let t := ids.foldl (cancelContact reason keep) s
    SameBut [.touch, .port .a, .port .b] s t
    ∧ t.touch = { s.touch with contacts := t.touch.contacts }
    ∧ (∀ d, t.touch.contacts.get d =
        if d ∈ ids then contactAfterCancel keep (s.touch.contacts.get d) else s.touch.contacts.get d)
    ∧ ∀ l, t.port l = handedAll (ids.filterMap (cancelFor l reason s.engine.activeEpoch keep s.touch.contacts))
        (s.port l) := by
  intro ids
  induction ids with
  | nil => intro s _; exact ⟨SameBut.refl _ _, rfl, fun d => by simp, fun l => rfl⟩
  | cons c cs ih =>
    intro s hn
    obtain ⟨hc, hn⟩ := List.nodup_cons.1 hn
    obtain ⟨h1, h2, h3, h4⟩ := ih (cancelContact reason keep s c) hn
    have hs := cancelContact_sameBut reason keep s c
    simp only [List.foldl_cons]
    refine ⟨hs.trans h1, ?_, fun d => ?_, fun l => ?_⟩
    · rw [h2, cancelContact_touch]
    · rw [h3, cancelContact_contacts]
      by_cases hd : d = c
      · subst hd; simp [hc]
      · simp [hd]
    · have hf : ∀ d ∈ cs, cancelFor l reason (cancelContact reason keep s c).engine.activeEpoch keep
          (cancelContact reason keep s c).touch.contacts d
            = cancelFor l reason s.engine.activeEpoch keep s.touch.contacts d := by
        intro d hd
        have : d ≠ c := fun h => hc (h ▸ hd)
        rw [hs.engine (by simp)]
        unfold cancelFor
        rw [cancelContact_contacts, if_neg this]
      rw [h4, List.filterMap_congr hf, cancelContact_port, ← handedAll_append]
      congr 1
      rw [List.filterMap_cons]
      cases cancelFor l reason s.engine.activeEpoch keep s.touch.contacts c <;> rfl

theorem touchIds_nodup : touchIds.Nodup := by decide

theorem mem_touchIds (c : TouchId) : c ∈ touchIds := by fin_cases c <;> simp [touchIds]

/-- Everything a cancellation of contacts can do (R139, R140). -/
theorem cancelContacts_spec (reason : CancelReason) (keep : List Nat) (s : State) :
    SameBut [.touch, .port .a, .port .b] s (cancelContacts reason keep s)
    ∧ (cancelContacts reason keep s).touch =
        { s.touch with contacts := (cancelContacts reason keep s).touch.contacts }
    ∧ (∀ d, (cancelContacts reason keep s).touch.contacts.get d =
        contactAfterCancel keep (s.touch.contacts.get d))
    ∧ ∀ l, (cancelContacts reason keep s).port l =
        handedAll (cancelsFor l reason s.engine.activeEpoch keep s.touch.contacts) (s.port l) := by
  have h := cancelMany reason keep touchIds s touchIds_nodup
  unfold cancelContacts
  generalize touchIds.foldl (cancelContact reason keep) s = t at h
  obtain ⟨h1, h2, h3, h4⟩ := h
  refine ⟨h1, h2, fun d => (h3 d).trans (if_pos (mem_touchIds d)), fun l => ?_⟩
  rw [h4, cancelsFor_eq]

/-! ## Ending commands -/

/-- What the completion of a WAIT for EPOCH leaves in its port. -/
theorem epochWaitDone_port (l : Link) (res : Results) (s : State) :
    (epochWaitDone l res s).port l =
      match (s.port l).slot with
      | some (.waitEpoch tag) => { s.port l with
          slot := none, armed := none
          responses := (s.port l).responses ++ [{ tag := tag, code := 0x61, status := .ok, results := res }] }
      | _ => s.port l := by
  unfold epochWaitDone
  split
  · rename_i h; rw [finish_port, h]; rfl
  · rename_i h
    first
      | rfl
      | (split
         · rename_i tag h'; exact absurd h' (h tag)
         · rfl)

theorem epochWaitDone_sameBut (l : Link) (res : Results) (s : State) : SameBut [.port l] s (epochWaitDone l res s) := by
  unfold epochWaitDone; split
  · exact finish_sameBut _ _ _ _
  · exact SameBut.refl _ _

/-- What the completion of the requesting SWITCH leaves in each port. -/
theorem switchDone_port (who : Option Link) (res : Results) (s : State) (l : Link) :
    (switchDone who res s).port l = if who = some l then (finish l .ok res s).port l else s.port l := by
  unfold switchDone
  cases who with
  | none => rfl
  | some m =>
    by_cases h : m = l
    · subst h; simp
    · simp only [Option.some.injEq, h, if_false]
      exact (finish_sameBut m _ _ _).port l (by simp [Ne.symm h])

theorem switchDone_sameBut (who : Option Link) (res : Results) (s : State) :
    SameBut [.port .a, .port .b] s (switchDone who res s) := by
  unfold switchDone
  split
  · exact SameBut.refl _ _
  · rename_i l; exact (finish_sameBut l _ _ _).mono (by cases l <;> simp)

/-- What a withdrawal leaves in the engine (R62). -/
theorem withdraw_engine (reason : WithdrawReason) (quiet : Bool) (s : State) :
    (withdraw reason quiet s).engine = if s.engine.pending = none then s.engine else withdrawnEngine s.engine := by
  unfold withdraw
  split
  · rename_i h; simp [h]
  · rename_i p h
    rw [if_neg (by simp [h])]
    have hb := (notifyBoth_sameBut (.withdrawn p.epoch p.slot reason) { s with engine := withdrawnEngine s.engine })
    split
    · exact hb.engine (by simp)
    · split
      · exact ((emptySlot_sameBut _ _).engine (by simp)).trans (hb.engine (by simp))
      · exact ((finish_sameBut _ _ _ _).engine (by simp)).trans (hb.engine (by simp))

theorem withdraw_sameBut (reason : WithdrawReason) (quiet : Bool) (s : State) :
    SameBut [.engine, .port .a, .port .b] s (withdraw reason quiet s) := by
  unfold withdraw
  split
  · exact SameBut.refl _ _
  · rename_i p h
    have h1 : SameBut [.engine, .port .a, .port .b] s { s with engine := withdrawnEngine s.engine } := by
      intro q hq; cases q <;> first | rfl | exact absurd (by simp) hq
    have h2 := h1.trans ((notifyBoth_sameBut (.withdrawn p.epoch p.slot reason) _).mono (by simp))
    split
    · exact h2
    · rename_i l _
      split
      · exact h2.trans ((emptySlot_sameBut l _).mono (by cases l <;> simp))
      · exact h2.trans ((finish_sameBut l _ _ _).mono (by cases l <;> simp))

/-- An abort changes the engine and the two ports, and nothing else. -/
theorem abortRunning_sameBut (l : Link) (quiet : Bool) (s : State) :
    SameBut [.engine, .port .a, .port .b] s (abortRunning l quiet s) := by
  unfold abortRunning
  split
  · exact SameBut.refl _ _
  · exact withdraw_sameBut _ _ _
  · split
    · exact (emptySlot_sameBut l s).mono (by cases l <;> simp)
    · exact (finish_sameBut l _ _ s).mono (by cases l <;> simp)

theorem abortArmed_sameBut (c : ArmCondition) (l : Link) (s : State) :
    SameBut [.engine, .port .a, .port .b] s (abortArmed c l s) := by
  unfold abortArmed
  split
  · exact SameBut.refl _ _
  · split
    · exact abortRunning_sameBut _ _ _
    · exact SameBut.refl _ _

end Sys2Proof.Machine
end

