-- ==== Sys2Proof/Laws/Frame.lean ====
section
/-! SUPPORT. What the parts of a frame start can do: which parts of the state each changes, and the scan engine's own
fields and notices. -/

namespace Sys2Proof.Machine

/-- The scan engine's part of a frame start before its notices. -/
theorem scanFrame_eq (s : State) :
    ∃ u, SameBut [.scan, .outputs] s u
      ∧ u.scan = { s.scan with
          frame := s.scan.frame + 1, row := some 0, rate := s.scan.nextRate
          latch := if s.scan.latch = .clearDue then .clear else s.scan.latch }
      ∧ u.outputs = { s.outputs with syncPulses := s.outputs.syncPulses + 1 }
      ∧ scanFrame s = if s.scan.latch = .clearDue then notifyBoth (.cutoff false (s.scan.frame + 1)) u else u := by
  refine ⟨_, ?_, ?_, ?_, rfl⟩
  · intro q hq; cases q <;> first | rfl | exact absurd (by simp) hq
  · rfl
  · rfl

theorem scanFrame_sameBut (s : State) : SameBut [.scan, .outputs, .port .a, .port .b] s (scanFrame s) := by
  obtain ⟨u, h1, _, _, h4⟩ := scanFrame_eq s
  rw [h4]; split
  · exact (h1.mono (by simp)).trans ((notifyBoth_sameBut _ _).mono (by simp))
  · exact h1.mono (by simp)

theorem scanFrame_scan (s : State) : (scanFrame s).scan = { s.scan with
    frame := s.scan.frame + 1, row := some 0, rate := s.scan.nextRate
    latch := if s.scan.latch = .clearDue then .clear else s.scan.latch } := by
  obtain ⟨u, _, h2, _, h4⟩ := scanFrame_eq s
  rw [← h2, h4, apply_ite State.scan, (notifyBoth_sameBut _ u).scan (by simp), ite_self]

theorem scanFrame_outputs (s : State) :
    (scanFrame s).outputs = { s.outputs with syncPulses := s.outputs.syncPulses + 1 } := by
  obtain ⟨u, _, _, h3, h4⟩ := scanFrame_eq s
  rw [h4]; split
  · exact ((notifyBoth_sameBut _ u).outputs (by simp)).trans h3
  · exact h3

theorem scanFrame_port (s : State) (l : Link) : (scanFrame s).port l =
    if s.scan.latch = .clearDue then handed (.cutoff false (s.scan.frame + 1)) (s.port l) else s.port l := by
  obtain ⟨u, h1, _, _, h4⟩ := scanFrame_eq s
  rw [h4]; split
  · rw [notifyBoth_port, h1.port l (by simp)]
  · exact h1.port l (by simp)

theorem storeFrame_sameBut (s : State) : SameBut [.engine] s (storeFrame s) := by
  intro q hq; cases q <;> first | rfl | exact absurd (by simp) hq

theorem frameWait_sameBut (l : Link) (s : State) : SameBut [.port l] s (frameWait l s) := by
  unfold frameWait; split
  · split
    · exact finish_sameBut _ _ _ _
    · exact modPort_sameBut _ _ _
  · exact SameBut.refl _ _

theorem portFrame_sameBut (l : Link) (s : State) : SameBut [.engine, .port .a, .port .b] s (portFrame l s) := by
  unfold portFrame
  exact ((modPort_sameBut l _ s).mono (by cases l <;> simp)).trans
    (((frameWait_sameBut l _).mono (by cases l <;> simp)).trans (abortArmed_sameBut _ _ _))

theorem abortIfFirst_sameBut (l : Link) (first : Bool) (s : State) :
    SameBut [.engine, .port .a, .port .b] s (abortIfFirst l first s) := by
  unfold abortIfFirst; split
  · exact abortArmed_sameBut _ _ _
  · exact SameBut.refl _ _

/-- An abort leaves the engine as it was or withdraws its transition. -/
theorem abortRunning_engine (l : Link) (quiet : Bool) (s : State) :
    (abortRunning l quiet s).engine = s.engine ∨ (abortRunning l quiet s).engine = withdrawnEngine s.engine := by
  unfold abortRunning; split
  · exact .inl rfl
  · rw [withdraw_engine]; split
    · exact .inl rfl
    · exact .inr rfl
  · left; split
    · exact (emptySlot_sameBut _ _).engine (by simp)
    · exact (finish_sameBut _ _ _ _).engine (by simp)

theorem abortArmed_engine (c : ArmCondition) (l : Link) (s : State) :
    (abortArmed c l s).engine = s.engine ∨ (abortArmed c l s).engine = withdrawnEngine s.engine := by
  unfold abortArmed; split
  · exact .inl rfl
  · split
    · exact abortRunning_engine _ _ _
    · exact .inl rfl

/-- With nothing pending an abort leaves the engine as it was. -/
theorem abortArmed_engine_steady (c : ArmCondition) (l : Link) {s : State} (h : s.engine.pending = none) :
    (abortArmed c l s).engine = s.engine := by
  unfold abortArmed; split
  · rfl
  · split
    · unfold abortRunning; split
      · rfl
      · rw [withdraw_engine, if_pos h]
      · split
        · exact (emptySlot_sameBut _ _).engine (by simp)
        · exact (finish_sameBut _ _ _ _).engine (by simp)
    · rfl

/-- No abort acts where none is armed for the condition. -/
theorem abortArmed_other {c : ArmCondition} {l : Link} {s : State}
    (h : ∀ a, (s.port l).armed = some a → a.condition ≠ c) : abortArmed c l s = s := by
  unfold abortArmed; split
  · rfl
  · rename_i a ha; rw [if_neg (h a ha)]

/-- No abort acts where the slot is empty. -/
theorem abortArmed_idle {c : ArmCondition} {l : Link} {s : State} (h : (s.port l).slot = none) :
    abortArmed c l s = s := by
  unfold abortArmed abortRunning; split
  · rfl
  · split
    · rw [h]
    · rfl

/-- In BLANKING no row is left: a frame start is the scan engine's part and what follows it (R106). -/
theorem frameStart_blanking {s : State} (h : s.scan.row = none) (order : LinkSet) :
    frameStart order s = portFrame .b (portFrame .a (engineFrame (storeFrame
      (abortIfFirst .b order.b (abortIfFirst .a order.a (scanFrame s)))))) := by
  unfold frameStart; rw [finishFrame_blanking h]

/-- A frame start that finds a row left is that row and then a frame start (R105). -/
theorem frameStart_scanRow {row : Nat} {s : State} (h : s.scan.row = some row) (order : LinkSet) :
    frameStart order s = frameStart order (scanRow row s) := by
  unfold frameStart; rw [finishFrame_scanRow h]

end Sys2Proof.Machine
end

