-- ==== Sys2Proof/Laws/Memory.lean ====
section
/-! SUPPORT. The pixel memory: what a write leaves at each address, and that it keeps the canonical form. -/

namespace Sys2Proof.Machine

/-- Reading from two parts of a memory: the first part's entry, else the second's. -/
theorem find_append (p q : List PixelCell) (x : Nat) :
    (p ++ q).find? (fun c => c.1 == x) = (p.find? (fun c => c.1 == x)).or (q.find? (fun c => c.1 == x)) :=
  List.find?_append

/-- A part whose addresses all miss `x` holds no entry for it. -/
theorem find_none_of_ne {p : List PixelCell} {x : Nat} (h : ∀ c ∈ p, c.1 ≠ x) :
    p.find? (fun c => c.1 == x) = none := by
  rw [List.find?_eq_none]; intro c hc; simpa using h c hc

/-- Cells dropped by a filter that keeps every entry for `x` do not change what is found there. -/
theorem find_filter {p : List PixelCell} {x : Nat} {keep : PixelCell → Bool} (h : ∀ c, c.1 = x → keep c = true) :
    (p.filter keep).find? (fun c => c.1 == x) = p.find? (fun c => c.1 == x) := by
  rw [List.find?_filter]
  congr 1; funext c
  by_cases hc : c.1 = x
  · simp [hc, h c hc]
  · simp [hc]

theorem pixelAt_congr {p q : List PixelCell} {x : Nat}
    (h : p.find? (fun c => c.1 == x) = q.find? (fun c => c.1 == x)) : pixelAt p x = pixelAt q x := by
  rw [pixelAt, pixelAt, h]

theorem cellsFrom_address {px : List Colour} : ∀ {a : Nat} {c : PixelCell}, c ∈ cellsFrom a px →
    a ≤ c.1 ∧ c.1 < a + px.length ∧ c.2 ≠ Config.unwrittenPixel := by
  induction px with
  | nil => intro a c h; simp [cellsFrom] at h
  | cons d ds ih =>
    intro a c h
    simp only [cellsFrom] at h
    split at h
    · obtain ⟨h1, h2, h3⟩ := ih h
      exact ⟨by omega, by simp only [List.length_cons]; omega, h3⟩
    · rcases List.mem_cons.1 h with rfl | h
      · simp_all
      · obtain ⟨h1, h2, h3⟩ := ih h
        exact ⟨by omega, by simp only [List.length_cons]; omega, h3⟩

theorem cellsFrom_find {px : List Colour} : ∀ {a x : Nat}, a ≤ x → x < a + px.length →
    pixelAt (cellsFrom a px) x = px.getD (x - a) Config.unwrittenPixel := by
  induction px with
  | nil => intro a x h1 h2; simp at h2; omega
  | cons d ds ih =>
    intro a x h1 h2
    simp only [List.length_cons] at h2
    by_cases hx : x = a
    · subst hx
      by_cases hd : d = Config.unwrittenPixel
      · rw [cellsFrom, if_pos hd, pixelAt, find_none_of_ne (fun c hc => by have := cellsFrom_address hc; omega)]
        simp [hd]
      · simp [cellsFrom, hd, pixelAt]
    · have h := ih (a := a + 1) (x := x) (by omega) (by omega)
      have hg : (d :: ds).getD (x - a) Config.unwrittenPixel = ds.getD (x - (a + 1)) Config.unwrittenPixel := by
        obtain ⟨k, rfl⟩ : ∃ k, x = a + 1 + k := ⟨x - (a + 1), by omega⟩
        rw [show a + 1 + k - a = k + 1 by omega, show a + 1 + k - (a + 1) = k by omega, List.getD_cons_succ]
      rw [hg, ← h]
      by_cases hd : d = Config.unwrittenPixel
      · rw [cellsFrom, if_pos hd]
      · refine pixelAt_congr ?_
        rw [cellsFrom, if_neg hd, List.find?_cons_of_neg (by simpa using fun h => hx h.symm)]

/-- What a write leaves at each address: the pixel written inside its range, the one before elsewhere. -/
theorem pixelAt_writePixels (m : List PixelCell) (a x : Nat) (px : List Colour) :
    pixelAt (writePixels m a px) x =
      if a ≤ x ∧ x < a + px.length then px.getD (x - a) Config.unwrittenPixel else pixelAt m x := by
  by_cases h : a ≤ x ∧ x < a + px.length
  · rw [if_pos h, ← cellsFrom_find h.1 h.2]
    refine pixelAt_congr ?_
    rw [writePixels, find_append, find_append,
      find_none_of_ne (p := m.filter (fun c => decide (c.1 < a)))
        (fun c hc => by have := (List.mem_filter.1 hc).2; simp at this; omega),
      find_none_of_ne (p := m.filter (fun c => decide (a + px.length ≤ c.1)))
        (fun c hc => by have := (List.mem_filter.1 hc).2; simp at this; omega)]
    simp
  · rw [if_neg h]
    refine pixelAt_congr ?_
    rw [writePixels, find_append, find_append,
      find_none_of_ne (p := cellsFrom a px) (fun c hc => by have := cellsFrom_address hc; omega), Option.or_none]
    by_cases hx : x < a
    · rw [find_filter (x := x) (fun c hc => by simpa [hc] using hx),
        find_none_of_ne (p := m.filter (fun c => decide (a + px.length ≤ c.1)))
          (fun c hc => by have := (List.mem_filter.1 hc).2; simp at this; omega)]
      simp
    · rw [find_none_of_ne (p := m.filter (fun c => decide (c.1 < a)))
          (fun c hc => by have := (List.mem_filter.1 hc).2; simp at this; omega),
        find_filter (x := x) (fun c hc => by simp [hc]; omega)]
      simp

/-- The canonical form, said of the whole list. -/
theorem wf_iff (m : List PixelCell) :
    Memory.wf m = true ↔ m.Pairwise (fun c d => c.1 < d.1) ∧ ∀ c ∈ m, c.2 ≠ Config.unwrittenPixel := by
  induction m with
  | nil => simp [Memory.wf]
  | cons c m ih =>
    simp only [Memory.wf, Bool.and_eq_true, ih, List.pairwise_cons, List.forall_mem_cons]
    constructor
    · rintro ⟨⟨h1, h2⟩, h3, h4⟩
      exact ⟨⟨fun d hd => by simpa using (List.all_eq_true.1 h2) d hd, h3⟩, of_decide_eq_true h1, h4⟩
    · rintro ⟨⟨h1, h2⟩, h3, h4⟩
      exact ⟨⟨decide_eq_true h3, List.all_eq_true.2 (fun d hd => by simpa using h1 d hd)⟩, h2, h4⟩

theorem cellsFrom_pairwise (px : List Colour) : ∀ a, (cellsFrom a px).Pairwise (fun c d => c.1 < d.1) := by
  induction px with
  | nil => intro a; simp [cellsFrom]
  | cons c cs ih =>
    intro a
    simp only [cellsFrom]
    split
    · exact ih _
    · exact List.pairwise_cons.2 ⟨fun d hd => by have := cellsFrom_address hd; simp; omega, ih _⟩

/-- A write keeps the canonical form. -/
theorem writePixels_wf {m : List PixelCell} (h : Memory.wf m = true) (a : Nat) (px : List Colour) :
    Memory.wf (writePixels m a px) = true := by
  rw [wf_iff] at h ⊢
  obtain ⟨hp, hv⟩ := h
  unfold writePixels
  refine ⟨List.pairwise_append.2 ⟨List.pairwise_append.2 ⟨hp.filter _, cellsFrom_pairwise px a, ?_⟩, hp.filter _, ?_⟩, ?_⟩
  · intro c hc d hd
    have h1 := (List.mem_filter.1 hc).2; have h2 := cellsFrom_address hd; simp at h1; omega
  · intro c hc d hd
    have h2 := (List.mem_filter.1 hd).2; simp at h2
    rcases List.mem_append.1 hc with hc | hc
    · have h1 := (List.mem_filter.1 hc).2; simp at h1; omega
    · have h1 := cellsFrom_address hc; omega
  · intro c hc
    rcases List.mem_append.1 hc with hc | hc
    · rcases List.mem_append.1 hc with hc | hc
      · exact hv c (List.mem_filter.1 hc).1
      · exact (cellsFrom_address hc).2.2
    · exact hv c (List.mem_filter.1 hc).1

/-- Consecutive pixels, one by one. -/
theorem readPixels_getElem (m : List PixelCell) (a n i : Nat) (h : i < n) :
    (readPixels m a n)[i]? = some (pixelAt m (a + i)) := by
  simp [readPixels, h]

@[simp] theorem readPixels_length (m : List PixelCell) (a n : Nat) : (readPixels m a n).length = n := by
  simp [readPixels]

end Sys2Proof.Machine
end

