-- ==== Sys2Proof/Laws/Packets.lean ====
section
/-! SUPPORT. The bytes of fields and packets read back: a field from its bytes, a framed packet from its bytes. -/

namespace Sys2Proof

theorem halfOf_bytes (h : Half) : halfOf (h.extractLsb' 8 8) (h.extractLsb' 0 8) = h := by
  unfold halfOf
  refine BitVec.eq_of_getLsbD_eq (fun i hi => ?_)
  rw [BitVec.getLsbD_append]
  split
  · simp [*]
  · rw [BitVec.getLsbD_extractLsb', decide_eq_true (show i - 8 < 8 by omega), Bool.true_and]
    congr 1; omega

theorem wordOf_bytes (w : Word) :
    wordOf (w.extractLsb' 24 8) (w.extractLsb' 16 8) (w.extractLsb' 8 8) (w.extractLsb' 0 8) = w := by
  unfold wordOf
  refine BitVec.eq_of_getLsbD_eq (fun i hi => ?_)
  rw [BitVec.getLsbD_append]
  split
  · rw [BitVec.getLsbD_append]
    split
    · simp [*]
    · rw [BitVec.getLsbD_extractLsb', decide_eq_true (show i - 8 < 8 by omega), Bool.true_and]
      congr 1; omega
  · rw [BitVec.getLsbD_append]
    split
    · rw [BitVec.getLsbD_extractLsb', decide_eq_true (show i - (8 + 8) < 8 by omega), Bool.true_and]
      congr 1; omega
    · rw [BitVec.getLsbD_extractLsb', decide_eq_true (show i - (8 + 8) - 8 < 8 by omega), Bool.true_and]
      congr 1; omega

/-- A list of pixels read back from its bytes. -/
theorem pixelsOf_bytes (px : List Colour) : pixelsOf (px.flatMap Colour.bytes) = px := by
  induction px with
  | nil => rfl
  | cons c cs ih => simp [Colour.bytes, pixelsOf, ih]

theorem bytes_length (px : List Colour) : (px.flatMap Colour.bytes).length = 3 * px.length := by
  induction px with
  | nil => rfl
  | cons c cs ih => simp [Colour.bytes, ih]; omega

/-- A framed packet whose payload a header can announce passes the first two checks whatever stands behind it, and the
next packet begins there. -/
theorem verdict_framePacket (cutoff : Bool) (l : Link) (kind flags : Byte) (payload rest : List Byte)
    (h : payload.length ≤ 7452) :
    verdict cutoff l (framePacket kind flags payload ++ rest) = classify cutoff l kind flags payload
      ∧ afterPacket (framePacket kind flags payload ++ rest) = rest := by
  have hn : (halfOf ((BitVec.ofNat 16 payload.length).extractLsb' 8 8)
      ((BitVec.ofNat 16 payload.length).extractLsb' 0 8)).toNat = payload.length := by
    rw [halfOf_bytes, BitVec.toNat_ofNat]; omega
  have hm : ¬ Config.maxPayload < payload.length := by simp [Config.maxPayload]; omega
  constructor
  · simp only [framePacket, halfBytes, List.cons_append, List.nil_append, verdict, hn, hm, if_false,
      List.append_assoc]
    rw [if_neg (by simp), List.take_left' rfl, List.drop_left' rfl]
    simp
  · simp only [framePacket, halfBytes, List.cons_append, List.nil_append, afterPacket, hn, hm, if_false,
      List.append_assoc]
    rw [← List.drop_drop, List.drop_left' rfl]
    rfl

end Sys2Proof
end

