-- ==== Sys2Proof/Tests/Slice0.lean ====
section
/-! SUPPORT. Tests: the ill-formed terms that WellFormed refuses, packets written out from chapter 9, single commands
with results taken from the spec's worked examples or worked by hand from its rules, and, for each statement that has
hypotheses, a state that meets them. -/

namespace Sys2Proof.Tests

open Sys2Proof.Machine

/-! ## States -/

/-- A port that has come ONLINE. -/
def portOn : Port := { Port.fresh 8 with state := .online }

/-- Both ports ONLINE and the scan in BLANKING, otherwise as after a power-on reset. -/
def online : State :=
  { State.reset with ports := ⟨portOn, portOn⟩, scan := { State.reset.scan with row := none } }

/-- Link A's port as given, B's ONLINE. -/
def onA (p : Port) : State := { online with ports := ⟨p, portOn⟩ }

/-- A response of no matter which command. -/
def anyResponse : Response := { tag := 0, code := 0x64, status := .ok, results := .none }

/-- A port with 8 responses unsent. -/
def portFull : Port := { portOn with responses := List.replicate 8 anyResponse }

/-- A touch notice for touch id 0. -/
def moveNotice (u : Nat) : Notice := .touch .move 0 1 u 0 1

/-- DOUBLE, TURNED, owned by A: columns 8 to 23, rows 2 and 3. -/
def regA : Region :=
  { tag := 1, owner := some .a, content := .double, col0 := 8, width := 16, row0 := 2, height := 2,
    orientation := .turned, fill := ⟨1, 2, 3⟩, touch := .route }

/-- STREAMED, owned by B: columns 24 to 31, rows 2 and 3. -/
def regB : Region :=
  { tag := 2, owner := some .b, content := .streamed, col0 := 24, width := 8, row0 := 2, height := 2,
    orientation := .upright, fill := ⟨4, 5, 6⟩, touch := .route }

/-- Owned by no link: columns 0 to 7, row 3. -/
def regN : Region :=
  { tag := 3, owner := none, content := .streamed, col0 := 0, width := 8, row0 := 3, height := 1,
    orientation := .upright, fill := ⟨7, 7, 7⟩, touch := .ignore }

/-- `regA` in another place: carried. -/
def regMoved : Region := { regA with row0 := 10, orientation := .upright }

/-- SINGLE, owned by A: columns 0 to 7, row 20. -/
def regC : Region :=
  { tag := 4, owner := some .a, content := .single, col0 := 0, width := 8, row0 := 20, height := 1,
    orientation := .upright, fill := ⟨8, 8, 8⟩, touch := .route }

/-- A buffer with a row flag for each row. -/
def buf (label : Label) (first : Nat) (valid : List Bool) : Buffer :=
  { label := label, first := first, count := 1, valid := valid }

/-- `regA`'s buffers: front A with row 0 valid, back B in a state of its own. -/
def bufsA (back : BackState) : Buffers :=
  { front := buf .a 0 [true, false], back := some (buf .b 1 [true, true]), backState := back, flipped := true,
    clearDue := none }

/-- `regC`'s buffers. -/
def bufsC (valid : Bool) : Buffers :=
  { front := buf .a 2 [valid], back := none, backState := .idle, flipped := false, clearDue := none }

/-- `regA`'s record. -/
def recA (m : Membership) (back : BackState) : RuntimeRecord :=
  { region := regA, membership := m, gate := .opened, entryEpoch := 1, buffers := some (bufsA back) }

/-- `regB`'s record. -/
def recB : RuntimeRecord :=
  { region := regB, membership := .active, gate := .opened, entryEpoch := 1, buffers := none }

/-- `regN`'s record. -/
def recN : RuntimeRecord :=
  { region := regN, membership := .active, gate := .closed, entryEpoch := 1, buffers := none }

/-- `regC`'s record in the pending layout. -/
def recC : RuntimeRecord :=
  { region := regC, membership := .pending, gate := .closed, entryEpoch := 2, buffers := some (bufsC false) }

/-- Slots 0 and 1 committed once. -/
def table : SlotTable :=
  { SlotTable.powerOn with
    slots := #v[⟨1, ⟨6, 6, 6⟩, [regA, regB, regN]⟩, ⟨1, ⟨9, 9, 9⟩, [regMoved, regC]⟩, .blank, .blank, .blank, .blank,
      .blank, .blank] }

/-- Slot 0 active under epoch 1, `regA`'s back as given; touch id 0 BOUND to `regA`, id 1 in DISCARD. -/
def shownWith (back : BackState) : State :=
  { online with
    slots := table
    engine :=
      { active := { slot := some 0, generation := 1, backdrop := ⟨6, 6, 6⟩ }, activeEpoch := 1, epochCounter := 1,
        pending := none, records := [recA .active back, recB, recN], ackFrames := 4 }
    touch := { State.reset.touch with
      contacts := #v[.bound 1 .a 5 6, .discard, .free, .free, .free, .free, .free, .free, .free, .free] } }

/-- See `shownWith`. -/
def shown : State := shownWith .idle

/-- The transition to slot 1 that link A's SWITCH announced. -/
def pend (armed : Bool) (window : Nat) : Pending :=
  { slot := 1, generation := 1, backdrop := ⟨9, 9, 9⟩, regions := [regMoved, regC], epoch := 2,
    cause := .switchBy .a, requester := some .a, ackSet := ⟨true, false⟩, acked := ⟨armed, false⟩, window := window,
    armed := armed }

/-- Slot 1 pending under epoch 2, with link A's SWITCH waiting. -/
def switching (armed : Bool) (window : Nat) (abort : Option ArmedAbort) : State :=
  { shown with
    engine := { shown.engine with
      epochCounter := 2
      pending := some (pend armed window)
      records := [recA .both .complete, recB, recN, recC] }
    ports := ⟨{ portOn with slot := some (.switch 9), armed := abort }, portOn⟩ }

/-- A link set. -/
def noLinks : LinkSet := ⟨false, false⟩

/-- A region record that passes: slot 0's first region of chapter 1, a DOUBLE region of link A. -/
def goodRecord : RegionRecord :=
  { tag := 1, owner := 1, kind := 1, buffering := 2, col0 := 0, width := 1160, row0 := 0, height := 2200,
    orientation := 0, fill := ⟨16, 16, 16⟩, touch := 1 }

/-- The settings of R46 as SET-HINGE sends them. -/
def goodHinge : HingeFields :=
  { foldEnter := 250, foldExit := 350, flatExit := 1600, flatEnter := 1700, dwell := 6, zero := 0, timeout := 20 }

/-- A streamed line for row 0 of `regB`. -/
def streamLine : Line :=
  { tag := 2, frameTag := 0, epoch := 1, row := 0, offset := 2, pixels := List.replicate 6 ⟨30, 31, 32⟩ }

/-! ## WellFormed refuses an ill-formed term for each check -/

theorem test_line_of_2481_pixels_refused (p : Line) (h : p.pixels.length = 2481) :
    Instr.wellFormed (.line .a p) = false := by
  show decide (p.pixels.length ≤ 2480) = false
  rw [h]
  rfl

theorem test_known_code_is_no_unknown_command : Instr.wellFormed (.unknownCommand .a 7 0x64) = false := by decide

theorem test_unused_code_is_an_unknown_command : Instr.wellFormed (.unknownCommand .a 7 0x66) = true := by decide

theorem test_incomplete_bytes_are_no_bad_packet : Instr.wellFormed (.badPacket .a [0x01, 0x00, 0x00]) = false := by
  decide

set_option maxRecDepth 4000 in
theorem test_valid_bytes_are_no_bad_packet :
    Instr.wellFormed (.badPacket .a (commandPacket .status 7 [])) = false := by decide

theorem test_long_header_is_a_bad_packet : Instr.wellFormed (.badPacket .a [0x02, 0x00, 0x1D, 0x1D]) = true := rfl

theorem test_report_shorter_than_its_count_refused :
    Instr.wellFormed (.touchReport 2 [⟨0, 0, 0, 0⟩] false) = false := by decide

theorem test_report_of_count_11_has_no_entries :
    Instr.wellFormed (.touchReport 11 [⟨0, 0, 0, 0⟩] false) = false
      ∧ Instr.wellFormed (.touchReport 11 [] false) = true := by decide

/-! ## Packets (chapter 9), byte by byte -/

set_option maxRecDepth 4000 in
/-- R146's check value. -/
theorem test_crc_check_value :
    crc [0x31, 0x32, 0x33, 0x34, 0x35, 0x36, 0x37, 0x38, 0x39] = 0x29B1 := by decide

set_option maxRecDepth 4000 in
/-- Section 9.3, ACK-EPOCH: code 0x22, epoch most significant byte first. -/
theorem test_ack_epoch_packet :
    classify false .b 0x01 0x00 [0x07, 0x22, 0x01, 0x02, 0x03, 0x04] = .valid (.ackEpoch .b 7 0x01020304) := rfl

/-- Section 9.4, the offsets of the region record. -/
theorem test_stage_region_packet :
    classify false .a 0x01 0x00 [0x05, 0x02, 0x01, 0x01, 0x01, 0x02, 0x00, 0x08, 0x04, 0x88, 0x00, 0x03, 0x08, 0x98,
        0x01, 0x10, 0x20, 0x30, 0x01]
      = .valid (.stageRegion .a 5
          { tag := 1, owner := 1, kind := 1, buffering := 2, col0 := 8, width := 1160, row0 := 3, height := 2200,
            orientation := 1, fill := ⟨16, 32, 48⟩, touch := 1 }) := rfl

/-- Section 9.3, SET-HINGE: the seven fields and their sizes. -/
theorem test_set_hinge_packet :
    classify false .a 0x01 0x00 [0x09, 0x10, 0x00, 0xFA, 0x01, 0x5E, 0x06, 0x40, 0x06, 0xA4, 0x06, 0x00, 0x00, 0x14]
      = .valid (.setHinge .a 9 goodHinge) := rfl

/-- Section 9.3, SET-TOUCH-CAL: OX and OY signed. -/
theorem test_set_touch_cal_packet :
    classify false .a 0x01 0x00 [0x09, 0x50, 0x9B, 0x09, 0x89, 0x88, 0xFF, 0xFF, 0x10, 0x00]
      = .valid (.setTouchCal .a 9 39689 35208 (-1) 4096) := rfl

/-- Section 9.2, a LINE of two pixels. -/
theorem test_line_packet :
    classify false .a 0x02 0x00 [0x05, 0x86, 0x00, 0x00, 0x00, 0x02, 0x00, 0x28, 0x00, 0x03, 0x00, 0x02, 1, 2, 3, 4, 5, 6]
      = .valid (.line .a
          { tag := 5, frameTag := 134, epoch := 2, row := 40, offset := 3,
            pixels := [⟨1, 2, 3⟩, ⟨4, 5, 6⟩] }) := rfl

/-- Section 9.2, marks: the flags tell BEGIN from END. -/
theorem test_mark_packets :
    classify false .a 0x03 0x00 [0x01, 0, 0, 0, 5] = .valid (.beginMark .a 1 5)
      ∧ classify false .a 0x03 0x01 [0x01, 0, 0, 0, 5] = .valid (.endMark .a 1 5) := by decide

/-- R169: the code list, one command of each chapter, and a length that does not fit. -/
theorem test_command_codes :
    classify true .a 0x01 0x00 [1, 0x41] = .valid (.resume .a 1 true)
      ∧ classify false .a 0x01 0x00 [1, 0x20, 5] = .valid (.switch .a 1 5)
      ∧ classify false .a 0x01 0x00 [1, 0x30, 4, 3] = .valid (.regionClear .a 1 4 3)
      ∧ classify false .a 0x01 0x00 [1, 0x62, 2, 1] = .valid (.abort .a 1 2 1)
      ∧ classify false .a 0x01 0x00 [1, 0x65] = .valid (.fetch .a 1)
      ∧ classify false .a 0x01 0x00 [1, 0x66] = .valid (.unknownCommand .a 1 0x66)
      ∧ classify false .a 0x01 0x00 [1, 0x20] = .wrongLength
      ∧ classify false .a 0x01 0x00 [1] = .malformed
      ∧ classify false .a 0x01 0x01 [1, 0x65] = .malformed := by decide

/-- R168: a RESPONSE to STAGE-COMMIT: tag, code, OK, slot, generation, region count. -/
theorem test_response_bytes :
    responsePayload { tag := 5, code := 0x03, status := .ok, results := .committed 2 258 3 }
      = [0x05, 0x03, 0x00, 0x02, 0x01, 0x02, 0x03] := by decide

/-- Section 9.6: a notice is 32 bytes, and the CURRENT notice fills them. -/
theorem test_notice_bytes :
    (noticeFields (currentNotice .a shown)).length = 32
      ∧ (noticeBytes (.touch .down 4 5 1166 4298 2)).take 12 = [0x10, 4, 5, 0x04, 0x8E, 0x10, 0xCA, 0, 0, 0, 2, 0]
      := by decide

/-- R40: the entry written is a slot or HOLD, and the outcome follows it (log 15). -/
theorem test_bind_response_bytes :
    responsePayload { tag := 5, code := 0x12, status := .ok, results := .binding .flat .rear .hold .announced }
      = [0x05, 0x12, 0x00, 0xFF, 0x00] := by decide

/-- R45, section 9.5: posture, face, H, F, and the dwell counter in 2 bytes (log 15). -/
theorem test_posture_read_bytes :
    (postureReadBytes { postureReadInfo online with dwellCount := 5 }).take 9
      = [0, 0, 0xFF, 0xFF, 0xFF, 0xFF, 0, 5, 0xFF] := by decide

/-! ## The hinge (sections 2.11 and 10.2) -/

/-- A part whose window holds what section 10.2 gives for sample a, in PARTIAL, ZERO 250. -/
def opening : State :=
  { online with posture := { State.reset.posture with
      measurement := some { high := some 1368 }
      window := some ⟨1680, 1690, 1702, 1711⟩, last := some { hinge := 1711, filtered := 1696 }
      posture := .part, sensor := .ok, running := some 20
      settings := { HingeSettings.default with zero := 250 } } }

/-- Section 10.2, sample a: F is 1706 and the dwell counts FLAT once. -/
theorem test_sample_a :
    let t := (stateAfter (exec (.hingeRise 2500 noLinks) opening) opening).posture
    t.last = some { hinge := 1720, filtered := 1706 } ∧ t.dwellCount = 1 ∧ t.counting = some .flat
      ∧ t.snapshot = some { period := 2500, high := 1368, angle := 1970, hinge := 1720, filtered := 1706 } := by
  decide

/-- Section 10.2, the rejected sample. -/
theorem test_rejected_sample :
    let t := (stateAfter (exec (.hingeRise 4100 noLinks) opening) opening).posture
    t.rejects = 1 ∧ t.window = opening.posture.window ∧ t.last = opening.posture.last := by decide

/-- R26: a period with no falling edge has its high time equal to its period, and is rejected. -/
theorem test_no_falling_edge :
    let s := { opening with posture := { opening.posture with measurement := some { high := none } } }
    (stateAfter (exec (.hingeRise 1000 noLinks) s) s).posture.rejects = 1 := by decide

/-- R46: no edge is taken before the reset ends, and the first rise after it forms no sample. -/
theorem test_first_rise_after_power_on :
    let s1 := stateAfter (exec .powerOnReset opening) opening
    let s2 := stateAfter (exec (.hingeRise 5000 noLinks) s1) s1
    let s3 := stateAfter (exec (.resetEnd false false) s2) s2
    let s4 := stateAfter (exec (.hingeRise 5000 noLinks) s3) s3
    s2.posture.measurement = none ∧ s4.posture.measurement = some { high := none } ∧ s4.posture.rejects = 0 := by
  decide

theorem test_hinge_fall_ends_high_time :
    let s := { opening with posture := { opening.posture with measurement := some { high := none } } }
    (stateAfter (exec (.hingeFall 1368) s) s).posture.measurement = some { high := some 1368 } := by decide

/-- R33: the loss keeps the posture and empties the window. -/
theorem test_sensor_timeout :
    let t := stateAfter (exec .sensorTimeout opening) opening
    t.posture.sensor = .lost ∧ t.posture.window = none ∧ t.posture.posture = .part
      ∧ (t.port .a).notices = [.sensor false .part] := by decide

/-! ## The transition engine -/

/-- R51, R54: link A's SWITCH to slot 1 announces epoch 2; `regA` is carried, `regC` placed at block 2. -/
theorem test_switch_announces :
    let s := shownWith .complete
    (stateAfter (exec (.switch .a 9 1) s) s).engine = (switching false 4 none).engine
      ∧ ((stateAfter (exec (.switch .a 9 1) s) s).port .a).slot = some (.switch 9) := by decide

/-- R56: the one acknowledgement of the ack set makes the state ARMED. -/
theorem test_ack_arms :
    let s := switching false 4 none
    (stateAfter (exec (.ackEpoch .a 3 2) s) s).engine.pending = some (pend true 4) := by decide

/-- R56: a link outside the ack set changes nothing and is answered OK. -/
theorem test_ack_of_other_link :
    let s := switching false 4 none
    let t := stateAfter (exec (.ackEpoch .b 3 2) s) s
    t.engine = s.engine
      ∧ (t.port .b).responses = [⟨3, 0x22, .ok, .acked 2 .announced⟩] := by decide

/-- R58 to R61, R97: the frame start of the switch also flips the COMPLETE back; the SWITCH is answered. -/
theorem test_switch_at_frame_start :
    let s := switching true 4 none
    let t := stateAfter (exec (.frameStart noLinks) s) s
    t.engine.active.slot = some 1 ∧ t.engine.activeEpoch = 2
      ∧ (t.engine.records.map (fun r => (r.region.tag, r.gate))) = [(1, .opened), (4, .closed)]
      ∧ (t.engine.records.map (fun r => r.buffers.map (·.front.label))) = [some .b, some .a]
      ∧ (t.port .a).responses = [⟨9, 0x20, .ok, .switched 2 1 1⟩] := by decide

/-- R58: the last count with no acknowledgement makes the switch with link A late. -/
theorem test_window_runs_out :
    let s := switching false 1 none
    let t := stateAfter (exec .ackWindowExpiry s) s
    (t.port .b).notices = [.active 2 1 1 1 ⟨true, false⟩] := by decide

/-- R65: ABORT NOW on a SWITCH: ABORTED, then the ABORT's own DONE. -/
theorem test_abort_now_withdraws :
    let s := switching true 4 none
    let t := stateAfter (exec (.abort .a 3 0 0) s) s
    t.engine.pending = none ∧ t.engine.records = [recA .active .complete, recB, recN]
      ∧ (t.port .a).responses = [⟨9, 0x20, .aborted, .epoch 2⟩, ⟨3, 0x62, .done, .none⟩] := by decide

/-- R67: an armed abort taken before the switch withdraws it; behind the switch it is disarmed. -/
theorem test_armed_abort_and_switch :
    let s := switching true 4 (some { condition := .atFrame, quiet := true })
    (stateAfter (exec (.frameStart ⟨true, false⟩) s) s).engine.active.slot = some 0
      ∧ (stateAfter (exec (.frameStart noLinks) s) s).engine.active.slot = some 1 := by decide

/-! ## The store (chapter 4) -/

/-- R4: the needs of chapter 1's layout: 624 blocks a buffer of 1160 x 2200, 86 for 160 x 2200. -/
theorem test_block_needs : blocks 1160 2200 = 624 ∧ blocks 160 2200 = 86 ∧ blocks 1240 2200 = 667 := by decide

/-- Section 10.1, step 6: the places of slot 0's buffers in an empty store. -/
theorem test_first_fit :
    firstFit 624 [] = some 0 ∧ firstFit 624 [⟨0, 624, 1, .pending, .a⟩] = some 624
      ∧ firstFit 86 [⟨0, 624, 1, .pending, .a⟩, ⟨624, 624, 1, .pending, .b⟩] = some 1248
      ∧ firstFit 667 [⟨0, 1334, 1, .active, .a⟩] = none := by decide

/-- R92, R90, R93, R96: BEGIN, a row, END, and the flip at the frame start. -/
theorem test_frame_marks :
    let s1 := stateAfter (exec (.beginMark .a 1 1) shown) shown
    let s2 := stateAfter (exec (.endMark .a 1 1) s1) s1
    let s3 := stateAfter (exec (.frameStart noLinks) s2) s2
    (s1.engine.records.head?.bind (·.buffers)).map (·.backState) = some .writing
      ∧ (s2.engine.records.head?.bind (·.buffers)).map (·.backState) = some .complete
      ∧ (s3.engine.records.head?.bind (·.buffers)).map (fun b => (b.front.label, b.backState)) = some (.b, .idle) := by
  decide

/-- R90: a full row of the back buffer, local row 1 of 16 pixels in block 1. -/
theorem test_double_line :
    let s := shownWith .writing
    let p : Line := { tag := 1, frameTag := 0, epoch := 1, row := 1, offset := 0, pixels := List.replicate 16 ⟨5, 0, 0⟩ }
    let t := stateAfter (exec (.line .a p) s) s
    pixelAt t.store (4096 + 16) = ⟨5, 0, 0⟩ ∧ pixelAt t.store (4096 + 31) = ⟨5, 0, 0⟩
      ∧ pixelAt t.store (4096 + 15) = ⟨0, 0, 0⟩ ∧ pixelAt t.store (4096 + 32) = ⟨0, 0, 0⟩ := by decide

/-- R89: a partial write of a row that was not valid fills the rest with the fill colour. -/
theorem test_single_line :
    let s := switching false 4 none
    let p : Line := { tag := 4, frameTag := 0, epoch := 2, row := 0, offset := 6, pixels := [⟨5, 0, 0⟩, ⟨6, 0, 0⟩] }
    let t := stateAfter (exec (.line .a p) s) s
    readPixels t.store (2 * 4096 + 5) 4 = [⟨8, 8, 8⟩, ⟨5, 0, 0⟩, ⟨6, 0, 0⟩, ⟨0, 0, 0⟩]
      ∧ t.engine.records.getLast?.map (·.gate) = some .closed := by decide

/-- R88, check 5: a line for a back that is not WRITING. -/
theorem test_line_outside_frame :
    let p : Line := { tag := 1, frameTag := 0, epoch := 1, row := 1, offset := 0, pixels := List.replicate 16 ⟨5, 0, 0⟩ }
    ((stateAfter (exec (.line .a p) shown) shown).port .a).counters.malformed = 1 := by decide

/-- R98 to R101: BOTH of an active DOUBLE region: the back cleared at once, the front due. -/
theorem test_region_clear :
    let t := stateAfter (exec (.regionClear .a 3 1 3) shown) shown
    (t.engine.records.head?.bind (·.buffers)).map (fun b => (b.clearDue, b.front.valid, b.back.map (·.valid)))
        = some (some .a, [true, false], some [false, false])
      ∧ (t.port .a).responses = [⟨3, 0x30, .ok, .cleared [⟨.active, some (.a, true), some .b⟩]⟩] := by decide

/-! ## The scan (chapter 5) -/

/-- A part at row 2 of frame 0, with stream lines for `regB` and a pixel of `regA`'s front. -/
def atRow (row : Nat) (q : List Line) : State :=
  { shown with
    scan := { State.reset.scan with row := some row }
    store := [(16, ⟨200, 0, 0⟩)]
    ports := ⟨portOn, { portOn with stream := q }⟩ }

/-- R110: panel row 3 of a TURNED region is local row 0, counted backwards; R109: a NONE region shows its fill. -/
theorem test_row_of_regions :
    let s := { atRow 3 [] with store := [(15, ⟨200, 0, 0⟩)] }
    let px := (scanSegments 3 (rowSegments 3 s.engine) s).2
    px = [(0, List.replicate 8 ⟨7, 7, 7⟩), (8, ⟨200, 0, 0⟩ :: List.replicate 15 ⟨0, 0, 0⟩),
      (24, List.replicate 8 ⟨4, 5, 6⟩)] := by decide

/-- R113, R114: the head line is consumed at its row and shown from its offset on. -/
theorem test_streamed_segment :
    let s := atRow 2 [{ streamLine with frameTag := 255 }, streamLine]
    let x := scanSegment 2 recB s
    x.2 = [⟨4, 5, 6⟩, ⟨4, 5, 6⟩] ++ List.replicate 6 ⟨30, 31, 32⟩
      ∧ (x.1.port .b).stream = [] ∧ (x.1.port .b).counters.stale = 1 := by decide

/-- R115: without a line, LATE. -/
theorem test_late_segment :
    let s := atRow 3 []
    ((scanSegment 3 recB s).1.port .b).counters.late = 1 := by decide

/-- R105: the last row is followed by BLANKING. -/
theorem test_row_after : rowAfter 2198 = some 2199 ∧ rowAfter 2199 = none := by decide

/-- R105: a frame start that finds the last row left scans it first. -/
theorem test_frame_start_scans_rows_left :
    let t := stateAfter (exec (.frameStart noLinks) (atRow 2199 [])) (atRow 2199 [])
    t.scan.row = some 0 ∧ t.scan.frame = 1 ∧ t.outputs.panelRow.map (·.1) = some 2199
      ∧ (t.port .b).stream = [] := by decide

/-- Section 10.2: the frame tag 133 against frame 902 lies at distance 255. -/
theorem test_frame_distance : frameDistance 133 902 = 255 ∧ frameDistance 134 902 = 0 := by decide

/-- R119, R121, R122: the latch, the RESUME, and the clear at the next frame start. -/
theorem test_cutoff :
    let s1 := stateAfter (exec .cutoffAssert online) online
    let s2 := stateAfter (exec (.resume .a 1 false) s1) s1
    let s3 := stateAfter (exec (.frameStart noLinks) s2) s2
    s1.scan.latch = .latched ∧ s2.scan.latch = .clearDue ∧ s3.scan.latch = .clear
      ∧ (s3.port .b).notices = [.cutoff true 0, .cutoff false 1]
      ∧ ((stateAfter (exec (.resume .b 1 true) s1) s1).port .b).responses = [⟨1, 0x41, .cutoffActive, .none⟩] := by
  decide

/-! ## The touch router (chapter 6, section 10.2) -/

/-- Section 10.2: the finger on the spine and the slide, with the default calibration. -/
theorem test_touch_mapping :
    mapPoint Calibration.default 1990 500 = { x16 := 19282, y16 := 4298 }
      ∧ pixelUnder (mapPoint Calibration.default 1990 500) = (1205, 268)
      ∧ localPoint { regC with col0 := 1160, width := 160, row0 := 0, height := 2200 }
          (mapPoint Calibration.default 1990 500) = (722, 4298)
      ∧ localPoint { regC with col0 := 1160, width := 160, row0 := 0, height := 2200 }
          (mapPoint Calibration.default 2300 500) = (2559, 4298)
      ∧ localPoint { regC with col0 := 1320, width := 1160, row0 := 0, height := 2200 }
          (mapPoint Calibration.default 2300 500) = (1166, 4298) := by decide

/-- R134, R136: a DOWN on `regB` binds; the UP of a DISCARD id frees it. -/
theorem test_touch_report :
    let s := { shown with touch := { shown.touch with reading := true } }
    let t := stateAfter (exec (.touchReport 2 [⟨2, 0, 43, 5⟩, ⟨1, 2, 0, 0⟩] false) s) s
    t.touch.contacts.get 2 = .bound 2 .b 33 11 ∧ t.touch.contacts.get 1 = .free ∧ t.touch.reading = false
      ∧ (t.port .b).notices = [.touch .down 2 2 33 11 1] := by decide

/-- R127: one entry out of range discards the whole report. -/
theorem test_malformed_report :
    let s := { shown with touch := { shown.touch with reading := true } }
    let t := stateAfter (exec (.touchReport 2 [⟨1, 2, 0, 0⟩, ⟨10, 0, 0, 0⟩] false) s) s
    t.touch.malformed = 1 ∧ t.touch.contacts.get 1 = .discard := by decide

/-! ## Slots, links and notices -/

/-- R12, R16: the commit of the staged region into slot 3. -/
def staged (rs : List Region) : State :=
  { online with slots := { SlotTable.powerOn with staging := ⟨some { slot := 3, backdrop := ⟨1, 1, 1⟩, records := rs }, none⟩ } }

/-- R5, R12: the list is sorted by row and then column. -/
theorem test_stage_commit :
    let s := staged [regN, regB, regA]
    let t := stateAfter (exec (.stageCommit .a 4) s) s
    t.slots.slots.get 3 = ⟨1, ⟨1, 1, 1⟩, [regA, regB, regN]⟩ ∧ t.slots.staging.a = none
      ∧ (t.port .a).responses = [⟨4, 0x03, .ok, .committed 3 1 3⟩] := by decide

/-- R13: an overlap names the index pair. -/
theorem test_stage_commit_overlap :
    let s := staged [regN, regA, { regB with col0 := 16 }]
    ((stateAfter (exec (.stageCommit .a 4) s) s).port .a).responses = [⟨4, 0x03, .overlap, .indexPair 1 2⟩] := by decide

/-- R2, R3: a STREAMED region may not be TURNED: field 9. -/
theorem test_stage_region_field :
    let s := staged []
    let r := { goodRecord with kind := 0, buffering := 0, orientation := 1 }
    ((stateAfter (exec (.stageRegion .a 4 r) s) s).port .a).responses = [⟨4, 0x02, .badParam, .field 9⟩] := by decide

/-- R20, R21, R23: the range, the freeze and the pulse. -/
theorem test_protect :
    let s1 := stateAfter (exec (.slotsOpen .a 1 2 5 0) online) online
    let s2 := stateAfter (exec (.slotsFreeze .a 2) s1) s1
    let s3 := stateAfter (exec (.slotsClose .a 3) s2) s2
    let s4 := stateAfter (exec .protectPulse s3) s3
    slotLocked s1.slots 1 = true ∧ slotLocked s1.slots 2 = false ∧ s3.slots = s2.slots
      ∧ s4.slots.freeze = false ∧ slotLocked s4.slots 2 = true := by decide

/-- R147, R164, R166: section 10.1, step 1: the CURRENT notice is queued before the STATUS record is taken. -/
theorem test_first_status :
    let t := stateAfter (exec (.status .a 1) State.reset) State.reset
    (t.port .a).state = .online
      ∧ (t.port .a).responses.map (fun r => match r.results with | .status i => i.noticeCount | _ => 99) = [1] := by
  decide

/-- R163: section 10.1, step 2. -/
theorem test_fetch :
    let s := onA { portOn with notices := [.sensor true .folded, moveNotice 3] }
    let t := stateAfter (exec (.fetch .a 1) s) s
    (t.port .a).notices = []
      ∧ (t.port .a).responses = [⟨1, 0x65, .ok, .notices [.sensor true .folded, moveNotice 3] 0⟩] := by decide

/-- R151: BUSY names the running command; with 8 responses unsent the command is lost. -/
theorem test_busy_and_overrun :
    let s := onA { portOn with slot := some (.waitPosture 6) }
    ((stateAfter (exec (.setQuiet .a 1 4) s) s).port .a).responses = [⟨1, 0x60, .busy, .running (.waitPosture 6)⟩]
      ∧ ((stateAfter (exec (.fetch .a 1) (onA portFull)) (onA portFull)).port .a).counters.overrun = 1 := by decide

/-- R148: the eighth silent frame start makes the port QUIET. -/
theorem test_quiet :
    let s := onA { portOn with quiet := 7 }
    ((stateAfter (exec (.quietDetect .a) s) s).port .a).state = .quiet := by decide

/-- R153: the WAIT for one frame. -/
theorem test_wait_frame :
    let s1 := stateAfter (exec (.wait .a 5 0 1) online) online
    let s2 := stateAfter (exec (.waitFrameDone .a) s1) s1
    (s1.port .a).slot = some (.waitFrame 5 1) ∧ (s2.port .a).slot = none
      ∧ (s2.port .a).responses = [⟨5, 0x61, .ok, .frame 1⟩] := by decide

set_option maxRecDepth 8000 in
/-- R145: a bad CRC, then a good STATUS behind it. -/
theorem test_bad_packet :
    let t := stateAfter (exec (.badPacket .a ([0x01, 0, 0, 2, 9, 0x64, 0, 0] ++ commandPacket .fetch 7 [])) online) online
    (t.port .a).counters.crcErrors = 1 ∧ (t.port .a).responses.map (·.code) = [0x65] := by decide

/-- R145: one byte of the CRC is still to come. -/
theorem test_incomplete_packet : exec (.badPacket .a [0x01, 0, 0, 2, 9, 0x64, 0]) shown = .next shown := rfl

/-- R156: PORT-RESET behind a response already produced. -/
theorem test_port_reset :
    let s := onA { portOn with slot := some (.waitEpoch 6), responses := [anyResponse] }
    ((stateAfter (exec (.portReset .a 1) s) s).port .a)
      = { portOn with responses := [anyResponse, ⟨1, 0x63, .ok, .none⟩] } := by decide

/-! ## States that meet the hypotheses of the statements

Each theorem is named after the statement whose hypotheses it meets, clause by clause, at boundary values where a clause
has a range. -/

/-- Section 7.9's simplest sender: a link whose slot is free. -/
theorem free_online : SlotFree .a online ∧ SlotFree .a shown ∧ SlotFree .a State.reset := by decide

theorem witness_StepRunsFrontCommand : State.reset.pending = [] := rfl

theorem witness_ResetHoldsPartUntilItsEnd :
    ({ State.reset with phase := .asserted }).phase = .asserted ∧ takenInReset (.status .a 0) = false
      ∧ takenInReset (.frameStart noLinks) = false ∧ ({ State.reset with phase := .powerOn }).phase ≠ .running
      ∧ State.reset.phase = .running := by decide

/-- Slot 0 locked by the range 1 to 7. -/
def lockedState : State := { online with slots := { SlotTable.powerOn with low := 1 } }

theorem witness_StageOpenAndDropFollowTheirChecks :
    SlotFree .a online ∧ 8 ≤ (8 : Byte).toNat ∧ ((7 : SlotNo).val = (7 : Byte).toNat)
      ∧ slotLocked online.slots 7 = false ∧ slotUse online.engine 7 = .none
      ∧ SlotFree .a lockedState ∧ slotLocked lockedState.slots 0 = true ∧ slotLocked lockedState.slots 1 = false
      ∧ SlotFree .a shown ∧ slotLocked shown.slots 0 = false ∧ slotUse shown.engine 0 ≠ .none
      ∧ online.slots.staging.get .a = none ∧ SlotFree .a (staged []) ∧ (staged []).slots.staging.get .a ≠ none := by
  decide

/-- Every field of `goodRecord` passes. -/
theorem goodRecord_passes : AllPass (fieldPasses goodRecord) 11 := by
  intro m h1 h2
  interval_cases m <;> simp +decide [fieldPasses]

/-- A record whose last field alone fails, and one whose first does. -/
theorem badRecord_fails :
    FirstFailing (fieldPasses { goodRecord with touch := 2 }) 11 11
      ∧ FirstFailing (fieldPasses { goodRecord with tag := 16 }) 11 1 := by
  refine ⟨⟨by decide, by decide, by simp +decide [fieldPasses], fun m h1 h2 => ?_⟩,
    ⟨by decide, by decide, by simp +decide [fieldPasses], fun m h1 h2 => by omega⟩⟩
  interval_cases m <;> simp +decide [fieldPasses]

theorem witness_StageRegionChecksThenAppends :
    SlotFree .a online ∧ online.slots.staging.get .a = none ∧ SlotFree .a (staged [])
      ∧ (staged []).slots.staging.get .a = some { slot := 3, backdrop := ⟨1, 1, 1⟩, records := [] }
      ∧ AllPass (fieldPasses goodRecord) 11 ∧ FirstFailing (fieldPasses { goodRecord with touch := 2 }) 11 11
      ∧ SlotFree .a (staged (List.replicate 8 regA)) ∧ 8 ≤ (List.replicate 8 regA).length
      ∧ (List.replicate 7 regA).length < 8 :=
  ⟨by decide, by decide, by decide, by decide, goodRecord_passes, badRecord_fails.1, by decide, by decide, by decide⟩

/-- `SharesPixel` over two entries of a list of two. -/
theorem pair_shares : FirstPairAt SharesPixel [regA, regA] 0 1 := by
  refine ⟨⟨by decide, regA, regA, rfl, rfl, by simp [SharesPixel, regA]⟩, fun i j h => ?_⟩
  obtain ⟨hij, x, y, hx, hy, -⟩ := h
  have := (List.getElem?_eq_some_iff.mp hy).1
  simp at this
  omega

/-- Two entries of one tag. -/
theorem pair_same_tag : FirstPairAt (fun x y => x.tag = y.tag) [regA, regMoved] 0 1 := by
  refine ⟨⟨by decide, regA, regMoved, rfl, rfl, rfl⟩, fun i j h => ?_⟩
  obtain ⟨hij, x, y, hx, hy, -⟩ := h
  have := (List.getElem?_eq_some_iff.mp hy).1
  simp at this
  omega

/-- No pair in a list of one. -/
theorem no_pair (rel : Region → Region → Prop) (g : Region) (i j : Nat) : ¬ PairAt rel [g] i j := by
  rintro ⟨hij, x, y, hx, hy, -⟩
  have := (List.getElem?_eq_some_iff.mp hy).1
  simp at this
  omega

/-- A region of the whole panel, whose DOUBLE buffers need 2666 blocks. -/
def wholePanel : Region := { regA with col0 := 0, width := 2480, row0 := 0, height := 2200 }

theorem no_pair_moved (rel : Region → Region → Prop) (h : ¬ rel regA regMoved) (i j : Nat) :
    ¬ PairAt rel [regA, regMoved] i j := by
  rintro ⟨hij, x, y, hx, hy, hr⟩
  have hj := (List.getElem?_eq_some_iff.mp hy).1
  simp at hj
  obtain ⟨rfl, rfl⟩ : i = 0 ∧ j = 1 := by omega
  simp at hx hy
  subst hx hy
  exact h hr

theorem witness_StageCommitChecksThenWritesSlot :
    SlotFree .a online ∧ online.slots.staging.get .a = none ∧ SlotFree .a (staged [regA])
      ∧ slotLocked (staged [regA]).slots 3 = false ∧ slotUse (staged [regA]).engine 3 = .none
      ∧ slotLocked { (staged [regA]).slots with low := 4 } 3 = true
      ∧ slotUse { (staged [regA]).engine with active := { slot := some 3, generation := 0, backdrop := ⟨0, 0, 0⟩ } } 3
          ≠ .none
      ∧ FirstPairAt SharesPixel [regA, regA] 0 1
      ∧ (∀ i j, ¬ PairAt SharesPixel [regA, regMoved] i j)
      ∧ FirstPairAt (fun x y => x.tag = y.tag) [regA, regMoved] 0 1
      ∧ (∀ i j, ¬ PairAt SharesPixel [wholePanel] i j) ∧ (∀ i j, ¬ PairAt (fun x y => x.tag = y.tag) [wholePanel] i j)
      ∧ 1536 < layoutNeed [wholePanel] ∧ (∀ i j, ¬ PairAt SharesPixel [regA] i j) ∧ layoutNeed [regA] ≤ 1536 :=
  ⟨by decide, by decide, by decide, by decide, by decide, by decide, by decide, pair_shares,
    no_pair_moved _ (by simp [SharesPixel, regA, regMoved]), pair_same_tag, no_pair _ _, no_pair _ _, by decide,
    no_pair _ _, by decide⟩

/-- Freeze set. -/
def frozen : State := { online with slots := { SlotTable.powerOn with freeze := true } }

theorem witness_RangeCommandsAndProtect :
    SlotFree .a online ∧ online.slots.freeze = false ∧ SlotFree .a frozen ∧ frozen.slots.freeze = true
      ∧ 7 < (8 : Byte).toNat ∧ (4 : Byte).toNat < (5 : Byte).toNat ∧ 1 < (2 : Byte).toNat
      ∧ (7 : SlotNo).val = (7 : Byte).toNat ∧ (7 : SlotNo) ≤ 7 ∧ (1 : Byte).toNat ≤ 1
      ∧ online.slots.outside = false ∧ slotLocked online.slots 7 = false ∧ slotLocked lockedState.slots 0 = true
      ∧ slotLocked { lockedState.slots with outside := true } 0 = false
      ∧ slotLocked { lockedState.slots with outside := true } 1 = true := by decide

/-- Two buffers of one block each, and the one gap above them. -/
theorem witness_ReadCommandsAnswerFromState_store :
    RunsOk shown.engine ∧ FreeGap (shown.engine.records.flatMap recordRuns) (2, 1534)
      ∧ storeSummary shown.engine.records = { held := 2, free := 1534, gaps := 1, longest := some (2, 1534) } :=
  ⟨by decide, by unfold FreeGap Fits; decide, by decide⟩

theorem witness_ReadCommandsAnswerFromState :
    SlotFree .a shown ∧ 7 < (8 : Byte).toNat ∧ (7 : SlotNo).val = (7 : Byte).toNat ∧ (7 : Byte).toNat ≤ 7
      ∧ (0 : Byte).toNat = 0 ∧ 15 < (16 : Byte).toNat ∧ 1 ≤ (1 : Byte).toNat ∧ (15 : Byte).toNat ≤ 15
      ∧ (∀ r ∈ shown.engine.records, r.region.tag ≠ (15 : Byte).toNat)
      ∧ ∃ r ∈ shown.engine.records, r.region.tag = (1 : Byte).toNat := by decide

theorem witness_SlotInUseIsNotRewritten :
    (∃ t, exec (.stageCommit .a 1) shown = .next t) ∧ isBytes (.stageCommit .a 1) = false
      ∧ slotUse shown.engine 0 ≠ .none ∧ slotUse (switching false 4 none).engine 1 ≠ .none :=
  ⟨⟨_, rfl⟩, rfl, by decide, by decide⟩

theorem witness_HingeEdgesMeasureAndReject :
    TakesPackets State.reset ∧ State.reset.posture.measurement = none
      ∧ opening.posture.measurement = some { high := some 1368 }
      ∧ opening.posture.measurement ≠ some { high := none }
      ∧ ¬ (400 ≤ min 399 65535) ∧ ¬ (min 4001 65535 ≤ 4000) ∧ ¬ (1368 ≤ min 1368 65535 - 1) := by decide

theorem witness_AcceptedSampleUpdatesMonitor :
    TakesPackets opening ∧ opening.posture.measurement = some { high := some 1368 }
      ∧ (400 ≤ min 2500 65535 ∧ min 2500 65535 ≤ 4000 ∧ 1 ≤ 1368 ∧ 1368 ≤ min 2500 65535 - 1)
      ∧ (400 ≤ min 400 65535 ∧ 1 ≤ min 400 65535 - 1) ∧ (min 4000 65535 ≤ 4000)
      ∧ opening.posture.snapshot = none ∧ opening.posture.sensor ≠ .lost
      ∧ candidate .part opening.posture.settings 1706 ≠ opening.posture.posture := by decide

/-- `opening` with the dwell one sample short of a change to FLAT. -/
def dwellDue : State :=
  { opening with posture := { opening.posture with dwellCount := 5, counting := some .flat } }

/-- A rise that completes the dwell. -/
theorem witness_PostureChangeTellsBothLinks_rise :
    let seen := recordSample 2500 1368 { dwellDue.posture with measurement := some { high := none }, sensor := .ok }
    TakesPackets dwellDue ∧ dwellDue.posture.measurement = some { high := some 1368 } ∧ candidateNow seen = .flat
      ∧ candidateNow seen ≠ dwellDue.posture.posture
      ∧ dwellDue.posture.settings.dwell ≤ dwellDue.posture.dwellCount + 1
      ∧ dwellDue.posture.counting = some (candidateNow seen)
      ∧ (stateAfter (exec (.hingeRise 2500 noLinks) dwellDue) dwellDue).posture.posture = .flat := by decide

/-- A posture change with no abort armed, with one on a WAIT and with one on a SWITCH. -/
theorem witness_PostureChangeTellsBothLinks :
    let after (s : State) := (followEvaluation .posture s).1
    let u := after (onA { portOn with slot := some (.waitPosture 6) })
    let v := after (onA { portOn with
      slot := some (.waitPosture 6), armed := some { condition := .atPosture, quiet := true } })
    let w := after (onA { portOn with
      slot := some (.waitEpoch 6), armed := some { condition := .atPosture, quiet := false } })
    let x := after (switching false 4 (some { condition := .atPosture, quiet := false }))
    (u.port .a).armed = none ∧ (u.port .b).armed = none ∧ (u.port .a).slot = some (.waitPosture 6)
      ∧ (u.port .b).slot = none
      ∧ (v.port .a).armed = some { condition := .atPosture, quiet := true } ∧ (v.port .b).armed = none
      ∧ (v.port .a).slot = some (.waitPosture 6) ∧ noLinks.get .a = false
      ∧ (w.port .a).armed = some { condition := .atPosture, quiet := false } ∧ (w.port .a).slot = some (.waitEpoch 6)
      ∧ (x.port .a).armed = some { condition := .atPosture, quiet := false } ∧ (x.port .a).slot = some (.switch 9)
      ∧ x.engine.pending = some (pend false 4) ∧ (pend false 4).requester = some .a ∧ (x.port .b).armed = none := by
  decide

theorem witness_CandidateFollowsTable :
    let h := HingeSettings.default
    h.foldEnter < h.foldExit ∧ h.foldExit < h.flatExit ∧ h.flatExit < h.flatEnter ∧ 250 ≤ h.foldEnter
      ∧ h.foldEnter < 251 ∧ 1699 < h.flatEnter ∧ h.flatEnter ≤ 1700 ∧ 349 < h.foldExit ∧ h.foldExit ≤ 350
      ∧ 1600 ≤ h.flatExit ∧ h.flatExit < 1601 := by decide

theorem witness_SensorLossAndSnapshotLatch :
    TakesPackets opening ∧ opening.posture.sensor = .ok ∧ online.posture.sensor ≠ .ok ∧ SlotFree .a online
      ∧ online.posture.snapshot = none
      ∧ SlotFree .a { online with posture := { State.reset.posture with snapshot := some ⟨1000, 500, 1800, 1800, 1800⟩ } }
      := by decide

/-- Every setting of R46 passes. -/
theorem goodHinge_passes : AllPass (settingPasses goodHinge) 7 := by
  intro m h1 h2
  interval_cases m <;> simp +decide [settingPasses]

theorem badHinge_fails : FirstFailing (settingPasses { goodHinge with timeout := 4 }) 7 7 := by
  refine ⟨by decide, by decide, by simp +decide [settingPasses], fun m h1 h2 => ?_⟩
  interval_cases m <;> simp +decide [settingPasses]

theorem witness_SetHingeChecksSevenFields :
    SlotFree .a online ∧ AllPass (settingPasses goodHinge) 7
      ∧ FirstFailing (settingPasses { goodHinge with timeout := 4 }) 7 7
      ∧ goodHinge.zero.toNat = online.posture.settings.zero ∧ goodHinge.zero.toNat ≠ opening.posture.settings.zero :=
  ⟨by decide, goodHinge_passes, badHinge_fails, by decide, by decide⟩

theorem witness_SetFaceAndBindRunFollowEvaluation :
    SlotFree .a online ∧ 1 < (2 : Byte).toNat ∧ (1 : Byte) = 1 ∧ (0 : Byte).toNat = 0 ∧ 3 < (4 : Byte).toNat
      ∧ 8 ≤ (8 : Byte).toNat ∧ (254 : Byte).toNat ≠ 0xFF ∧ (7 : SlotNo).val = (7 : Byte).toNat := by decide

/-- FOLDED and FRONT, bound to a slot. -/
def follows (n : Binding) (s : State) : State :=
  { s with posture := { s.posture with
      posture := .folded, last := some ⟨12, 12⟩, sensor := .ok, running := some 20
      bindings := { Bindings.allHold with foldedFront := n } } }

/-- Slot 2 holds a layout that the store cannot hold beside itself. -/
def tooLarge (s : State) : State :=
  { s with slots := { s.slots with slots := s.slots.slots.set 2 ⟨1, ⟨0, 0, 0⟩, [wholePanel]⟩ } }

theorem witness_FollowEvaluationMakesRequest :
    State.reset.posture.posture = .unknown
      ∧ bindingFor (follows .hold shown).posture.bindings .folded .front = some .hold
      ∧ (follows (.slot 0) shown).engine.pending = none ∧ (follows (.slot 0) shown).engine.active.slot = some 0
      ∧ (switching false 4 none).engine.pending = some (pend false 4) ∧ (pend false 4).slot = 1
      ∧ (follows (.slot 1) shown).engine.active.slot ≠ some 1
      ∧ (steadyRequest 1 .posture none (follows (.slot 1) shown)).2 = .announced
      ∧ (steadyRequest 2 .posture none (tooLarge (follows (.slot 2) shown))).2 = .storeFull 2666
      ∧ (steadyRequest 1 .posture none
          { shown with engine := { shown.engine with epochCounter := 0xFFFFFFFF } }).2 = .exhausted := by decide

theorem witness_RequestAnnouncesNextEpoch :
    ({ shown with engine := { shown.engine with epochCounter := 0xFFFFFFFF } }).engine.epochCounter = 0xFFFFFFFF
      ∧ shown.engine.epochCounter ≠ 0xFFFFFFFF
      ∧ allocate (storeMap shown.engine.records) [wholePanel] = none
      ∧ allocate (storeMap shown.engine.records) [regC] = some [(regC, some (bufsC false))] := by decide

theorem witness_SwitchFollowsItsChecks :
    SlotFree .a shown ∧ 8 ≤ (8 : Byte).toNat ∧ (1 : SlotNo).val = (1 : Byte).toNat
      ∧ SlotFree .b (switching false 4 none) ∧ (switching false 4 none).engine.pending ≠ none
      ∧ shown.engine.pending = none ∧ shown.engine.active.slot = some 0 ∧ shown.engine.active.slot ≠ some 1
      ∧ (steadyRequest 1 (.switchBy .a) (some .a) (arrive .a shown)).2 = .announced
      ∧ (steadyRequest 2 (.switchBy .a) (some .a) (arrive .a (tooLarge shown))).2 = .storeFull 2666 := by decide

theorem witness_AckEpochJoinsAcknowledgedSet :
    TakesCommand .a shown ∧ shown.engine.pending = none ∧ TakesCommand .a (switching false 4 none)
      ∧ (switching false 4 none).engine.pending = some (pend false 4) ∧ (1 : Word) ≠ (pend false 4).epoch
      ∧ (2 : Word) = (pend false 4).epoch ∧ (pend false 4).ackSet.get .b = false
      ∧ (pend false 4).ackSet.get .a = true := by decide

theorem witness_AbortActsOnRunningCommand :
    TakesCommand .a (onA { portOn with slot := some (.waitFrame 6 1) }) ∧ 2 < (3 : Byte).toNat
      ∧ (2 : Byte).toNat ≤ 2 ∧ (online.port .a).slot = none ∧ TakesCommand .a (switching false 4 none)
      ∧ ((switching false 4 none).port .a).slot = some (.switch 9)
      ∧ (switching false 4 none).engine.pending = some (pend false 4) ∧ (pend false 4).requester = some .a := by decide

/-- The calibration defaults pass, and an OY of 4096 alone fails. -/
theorem calibration_passes :
    AllPass (calibrationPasses 39689 35208 0 0) 4 ∧ FirstFailing (calibrationPasses 1 1 0 4096) 4 4 := by
  refine ⟨fun m h1 h2 => ?_, by decide, by decide, by simp +decide [calibrationPasses], fun m h1 h2 => ?_⟩
  · interval_cases m <;> simp +decide [calibrationPasses]
  · interval_cases m <;> simp +decide [calibrationPasses]

theorem witness_SettingAndWaitCommandsCheckRange :
    SlotFree .a online ∧ (0 : Byte).toNat = 0 ∧ 15 < (16 : Byte).toNat ∧ 1 ≤ (1 : Byte).toNat
      ∧ (15 : Byte).toNat ≤ 15 ∧ (61 : Byte).toNat ≠ 60 ∧ 2 < (3 : Byte).toNat ∧ (2 : Byte).toNat = 2
      ∧ AllPass (calibrationPasses 39689 35208 0 0) 4 ∧ FirstFailing (calibrationPasses 1 1 0 4096) 4 4 :=
  ⟨by decide, by decide, by decide, by decide, by decide, by decide, by decide, by decide, calibration_passes.1,
    calibration_passes.2⟩

theorem witness_SwitchTellsEveryBlock :
    (switching true 4 none).engine.pending = some (pend true 4) ∧ (pend true 4).armed = true
      ∧ (pend false 1).armed = false ∧ (pend false 1).window ≤ 1 ∧ 1 < (pend false 2).window
      ∧ (pend true 4).requester = some .a ∧ ((switching true 4 none).port .a).slot = some (.switch 9)
      ∧ (pend true 4).requester ≠ some .b ∧ ((switching true 4 none).port .b).slot = none
      ∧ ((onA { portOn with slot := some (.waitEpoch 6) }).port .a).slot = some (.waitEpoch 6) := by decide

/-- A part in STEADY meets every law. -/
theorem laws_shown :
    PortsOk shown ∧ PostureOk shown.posture ∧ SlotsOk shown ∧ EngineOk shown ∧ StoreOk shown ∧ RecordsOk shown
      ∧ ContactsOk shown :=
  ⟨by decide, by decide, by decide, by decide, by decide, by decide, by decide⟩

/-- A part with a pending transition, a carried region and a COMPLETE back meets every law. -/
theorem laws_switching :
    let s := switching false 4 none
    PortsOk s ∧ PostureOk s.posture ∧ SlotsOk s ∧ EngineOk s ∧ StoreOk s ∧ RecordsOk s ∧ ContactsOk s :=
  ⟨by decide, by decide, by decide, by decide, by decide, by decide, by decide⟩

theorem witness_SwitchKeepsCarriedRecords :
    RecordsOk (switching true 4 none) ∧ (switching true 4 none).engine.pending = some (pend true 4)
      ∧ (∃ r ∈ (switching true 4 none).engine.records, r.membership = .both)
      ∧ ∃ r ∈ (switching true 4 none).engine.records, r.membership = .pending := by decide

theorem witness_WithdrawalEndsTransition :
    (switching false 4 none).engine.pending = some (pend false 4) ∧ (pend false 4).requester = some .a
      ∧ (pend false 4).requester ≠ some .b ∧ ((switching false 4 none).port .a).slot = some (.switch 9) := by decide

theorem witness_FrameStartAdvancesScan :
    TakesPackets shown ∧ shown.scan.row = none ∧ shown.engine.pending = none ∧ (∀ l, (shown.port l).slot = none)
      ∧ (shown.port .a).state = .online ∧ (State.reset.port .a).state ≠ .online
      ∧ TakesPackets State.reset ∧ State.reset.scan.row = some 0 :=
  ⟨by decide, by decide, by decide, fun l => by cases l <;> decide, by decide, by decide, by decide, by decide⟩

/-- A transition that a follow request announced, with a WAIT on link A. -/
def followed (armed : Bool) (window : Nat) (wait : Running) : State :=
  { switching armed window none with
    engine := { (switching armed window none).engine with
      pending := some { pend armed window with requester := none } }
    ports := ⟨{ portOn with slot := some wait }, portOn⟩ }

theorem witness_SwitchMadeAtFrameStart :
    let s := switching true 4 (some { condition := .atPosture, quiet := false })
    TakesPackets s ∧ s.scan.row = none ∧ s.engine.pending = some (pend true 4)
      ∧ (∀ l a, (⟨true, true⟩ : LinkSet).get l = true → (s.port l).armed = some a → a.condition ≠ .atFrame)
      ∧ (switching false 1 none).engine.pending = some (pend false 1) ∧ (pend false 1).window ≤ 1
      ∧ 1 < (pend false 2).window ∧ (s.port .b).slot = none ∧ (s.port .a).slot = some (.switch 9)
      ∧ (pend true 4).requester = some .a
      ∧ ((followed true 4 (.waitEpoch 6)).port .a).slot = some (.waitEpoch 6)
      ∧ ((followed true 4 (.waitFrame 6 2)).port .a).slot = some (.waitFrame 6 2)
      ∧ ((followed true 4 (.waitFrame 6 1)).port .a).slot = some (.waitFrame 6 1)
      ∧ ((followed true 4 (.waitPosture 6)).port .a).slot = some (.waitPosture 6)
      ∧ ((followed true 4 (.waitPosture 6)).port .a).armed = none :=
  ⟨by decide, by decide, by decide, fun l a _ h => (by
    cases l
    · cases h; decide
    · cases h), by decide, by decide, by decide, by decide, by decide, by decide, by decide, by decide, by decide,
    by decide, by decide⟩

theorem witness_NamedFrameStartsAreFrameStarts :
    TakesPackets (switching false 1 none) ∧ (switching false 1 none).engine.pending = some (pend false 1)
      ∧ (pend false 1).window ≤ 1 ∧ 1 < (pend false 2).window
      ∧ ((onA { portOn with quiet := 7 }).port .a).quiet + 1 = ((onA { portOn with quiet := 7 }).port .a).quietFrames
      ∧ (online.port .a).quiet + 1 ≠ (online.port .a).quietFrames
      ∧ ((onA { portOn with slot := some (.waitFrame 6 1) }).port .a).slot = some (.waitFrame 6 1)
      ∧ (onA { portOn with slot := some (.waitFrame 6 1) }).engine.pending = none := by decide

theorem witness_ArmedAbortActsAtFrameStart :
    let w := onA { portOn with slot := some (.waitFrame 6 2), armed := some { condition := .atFrame, quiet := false } }
    let s := switching true 4 (some { condition := .atFrame, quiet := true })
    TakesPackets w ∧ w.engine.pending = none ∧ (w.port .a).slot = some (.waitFrame 6 2)
      ∧ (w.port .a).armed = some { condition := .atFrame, quiet := false }
      ∧ TakesPackets s ∧ s.engine.pending = some (pend true 4) ∧ (pend true 4).requester = some .a
      ∧ (s.port .a).slot = some (.switch 9) ∧ (s.port .a).armed = some { condition := .atFrame, quiet := true }
      ∧ (s.port Link.a.other).armed = none ∧ 1 < (pend false 2).window := by decide

/-- The WAITs for EPOCH and POSTURE under an AT_FRAME abort, and a transition that is due or not. -/
theorem witness_ArmedAbortActsAtFrameStart_waits :
    let held (s : State) : State := s.modPort .a (fun p =>
      { p with armed := some { condition := .atFrame, quiet := false } })
    let e := held (followed false 1 (.waitEpoch 6))
    let f := held (followed false 4 (.waitEpoch 6))
    let p := held (followed false 4 (.waitPosture 6))
    TakesPackets e ∧ (e.port .a).slot = some (.waitEpoch 6) ∧ e.engine.pending ≠ none
      ∧ (e.port .a).armed = some { condition := .atFrame, quiet := false } ∧ (e.port .b).armed = none
      ∧ (f.engine.pending.map (·.window)) = some 4 ∧ (f.port .a).slot = some (.waitEpoch 6)
      ∧ (p.port .a).slot = some (.waitPosture 6)
      ∧ ((stateAfter (exec (.frameStart noLinks) e) e).port .a).responses = [⟨6, 0x61, .ok, .switched 2 1 1⟩]
      ∧ ((stateAfter (exec (.frameStart noLinks) f) f).port .a).responses = [⟨6, 0x61, .aborted, .none⟩] := by decide

theorem witness_ActiveLayoutAndPostureChangeOnlyAtTheirEvents :
    (∃ t, exec (.line .a streamLine) shown = .next t) ∧ isReset (.line .a streamLine) = false
      ∧ isFrameStart (.line .a streamLine) = false ∧ isBytes (.line .a streamLine) = false ∧ RecordsOk shown
      ∧ ∃ r ∈ shown.engine.records, r.membership ≠ .pending ∧ r.region.content = .double :=
  ⟨⟨_, rfl⟩, rfl, rfl, rfl, laws_shown.2.2.2.2.2.1, by decide⟩

theorem witness_ResolveFollowsEpochs :
    let e := (switching false 4 none).engine
    (activeRecords e).Pairwise (fun x y => x.region.tag ≠ y.region.tag)
      ∧ (pendingRecords e).Pairwise (fun x y => x.region.tag ≠ y.region.tag) ∧ resolve e 2 4 = some recC
      ∧ resolve e 1 2 = some recB := by decide

theorem witness_FrameMarksDriveBackState :
    TakesPackets shown ∧ resolve shown.engine 0 1 = none ∧ resolve shown.engine 1 1 = some (recA .active .idle)
      ∧ regA.owner = some .a ∧ regA.owner ≠ some .b ∧ regA.content = .double
      ∧ resolve shown.engine 1 2 = some recB ∧ regB.content ≠ .double
      ∧ (bufsA .idle).backState ≠ .writing
      ∧ resolve (shownWith .writing).engine 1 1 = some (recA .active .writing) ∧ (bufsA .writing).backState = .writing
      := by decide

/-- `regA` in the pending layout alone, its back WRITING. -/
def pendingDouble : State :=
  let s := switching false 4 none
  { s with engine := { s.engine with
      active := { s.engine.active with slot := none }
      records := [{ recA .pending .writing with gate := .closed, entryEpoch := 2 }] } }

theorem witness_FrameMarksDriveBackState_pending :
    resolve pendingDouble.engine 2 1 = some { recA .pending .writing with gate := .closed, entryEpoch := 2 } := by decide

theorem witness_StoredLineWritesItsRow :
    TakesPackets shown ∧ resolve shown.engine 0 1 = none ∧ regA.content ≠ .streamed
      ∧ resolve (switching false 4 none).engine 2 4 = some recC ∧ recC.buffers = some (bufsC false)
      ∧ (bufsC false).back = none ∧ (0 < regC.height ∧ 1 ≤ 8 ∧ 0 + 8 ≤ regC.width) ∧ ¬ (1 < regC.height)
      ∧ resolve (shownWith .writing).engine 1 1 = some (recA .active .writing)
      ∧ (bufsA .writing).back = some (buf .b 1 [true, true]) ∧ 16 = regA.width ∧ ¬ (15 = regA.width) := by decide

theorem witness_StreamedLineJoinsQueue :
    TakesPackets shown ∧ resolve shown.engine 1 2 = some recB ∧ regB.content = .streamed ∧ regB.owner = some .b
      ∧ regB.owner ≠ some .a ∧ streamLine.row.toNat < regB.height ∧ 1 ≤ streamLine.pixels.length
      ∧ streamLine.offset.toNat + streamLine.pixels.length ≤ regB.width
      ∧ 48 ≤ ((atRow 2 (List.replicate 48 streamLine)).port .b).stream.length
      ∧ ((atRow 2 (List.replicate 39 streamLine)).port .b).stream.length + 1 = 40 := by decide

theorem witness_FrameStartFlipsCompleteBacks :
    recC.membership = .pending ∧ recB.region.content ≠ .double ∧ (recA .active .complete).membership ≠ .pending
      ∧ (recA .active .complete).buffers = some (bufsA .complete)
      ∧ (bufsA .complete).back = some (buf .b 1 [true, true])
      ∧ (buf .b 1 [true, true]).label ≠ (bufsA .complete).front.label ∧ (bufsA .complete).clearDue = none
      ∧ (bufsA .idle).backState ≠ .complete := by decide

theorem witness_FlipAndSwitchCommute :
    RecordsOk (switching true 4 none) ∧ (switching true 4 none).engine.pending = some (pend true 4) := by decide

theorem witness_RegionClearActsOnOwnedRecords :
    SlotFree .a shown ∧ (0 : Byte).toNat = 0 ∧ 15 < (16 : Byte).toNat ∧ 3 < (4 : Byte).toNat
      ∧ shown.engine.records.filter (fun r => r.region.tag = (15 : Byte).toNat) = []
      ∧ shown.engine.records.filter (fun r => r.region.tag = (2 : Byte).toNat) = [recB] ∧ regB.owner ≠ some .a
      ∧ SlotFree .b shown ∧ regB.owner = some .b ∧ regB.content ≠ .double ∧ regB.content ≠ .single
      ∧ shown.engine.records.filter (fun r => r.region.tag = (1 : Byte).toNat) = [recA .active .idle]
      ∧ regA.owner = some .a ∧ (recA .active .idle).buffers = some (bufsA .idle) := by decide

theorem witness_AllocationIsFirstFit :
    (storeMap shown.engine.records).Pairwise (fun x y => x.first + x.count ≤ y.first)
      ∧ (∀ r ∈ storeMap shown.engine.records, r.first + r.count ≤ 1536)
      ∧ firstFit 1 (storeMap shown.engine.records) = some 2 ∧ firstFit 1535 (storeMap shown.engine.records) = none
      ∧ firstFit 1 [⟨0, 1535, 1, .active, .a⟩] = some 1535
      ∧ firstFit 1 [⟨0, 1535, 1, .active, .a⟩, ⟨1535, 1, 2, .active, .a⟩] = none
      ∧ regC.content = .single ∧ regA.content = .double ∧ regB.content = .streamed := by decide

theorem witness_RowScanSendsOneRow :
    TakesPackets online ∧ ({ State.reset with scan := { State.reset.scan with row := none } }).scan.row = none
      ∧ State.reset.scan.row = some 0 ∧ activeRecords online.engine = [] ∧ online.scan.latch = .clear
      ∧ (modScan (fun c => { c with row := some 2199, latch := .latched }) online).scan.latch ≠ .clear
      ∧ rowSegments 3 shown.engine = [recN, recA .active .idle, recB] ∧ recN.region.owner = none
      ∧ (recA .active .idle).region.content ≠ .streamed ∧ recB.region.owner = some .b
      ∧ recB.region.content = .streamed := by decide

/-- The law of the records does not look at the row, the stream queues or the pixels. -/
theorem witness_EveryPixelFollowsItsRegion :
    RecordsOk (atRow 3 []) ∧ SlotsOk (atRow 3 []) ∧ TakesPackets (atRow 3 []) ∧ (atRow 3 []).scan.row = some 3
      ∧ (atRow 3 []).scan.latch = .clear
      ∧ (∀ r ∈ activeRecords (atRow 3 []).engine, containsPixel r.region 32 3 = false)
      ∧ (∃ r ∈ activeRecords (atRow 3 []).engine, containsPixel r.region 0 3 = true ∧ r.region.owner = none)
      ∧ (∃ r ∈ activeRecords (atRow 3 []).engine, containsPixel r.region 23 3 = true ∧ r.region.content ≠ .streamed
          ∧ r.buffers = some (bufsA .idle) ∧ r.gate = .opened)
      ∧ (∃ r ∈ activeRecords (atRow 3 []).engine, containsPixel r.region 24 3 = true ∧ r.region.content = .streamed
          ∧ r.region.owner = some .b)
      ∧ (bufsA .idle).front.valid.getD 0 false = true ∧ (bufsA .idle).front.valid.getD 1 false = false :=
  ⟨by decide, by decide, by decide, by decide, by decide, by decide, by decide, by decide, by decide, by decide, by decide⟩

/-- A line that waits for its epoch: `regB` in the layout pending under epoch 2. -/
def awaiting : Engine :=
  { (switching false 4 none).engine with records := [{ recB with membership := .both }] }

theorem witness_HeadLineIsJudgedInFiveSteps_pending :
    resolve awaiting 2 2 = some { recB with membership := .both } ∧ awaiting.pending = some (pend false 4)
      ∧ (pend false 4).epoch = 2 ∧ judge awaiting 0 .b 2 24 { streamLine with epoch := 2 } = .wait := by decide

theorem witness_HeadLineIsJudgedInFiveSteps :
    resolve shown.engine 0 2 = none ∧ resolve shown.engine 1 2 = some recB ∧ shown.engine.pending = none
      ∧ (128 ≤ (128 + 256 - 0 % 256) % 256 ∧ (127 + 256 - 0 % 256) % 256 ≤ 127 ∧ (0 + 256 - 0 % 256) % 256 = 0)
      ∧ judge shown.engine 0 .b 2 24 streamLine = .consume ∧ judge shown.engine 0 .b 2 23 streamLine = .wait
      ∧ judge shown.engine 0 .b 2 25 streamLine = .discard := by decide

theorem witness_StreamedSegmentShowsHeadLine :
    (examine shown.engine 0 .b 2 24 [streamLine]).consumed = some streamLine
      ∧ streamLine.offset.toNat + streamLine.pixels.length ≤ regB.width
      ∧ (examine shown.engine 0 .b 3 24 []).consumed = none ∧ recB.gate = .opened ∧ (shown.port .b).state = .online
      ∧ shown.scan.latch = .clear := by decide

theorem witness_CutoffLatchesAndResumeClears :
    TakesPackets shown ∧ SlotFree .a shown ∧ shown.scan.latch = .clear
      ∧ SlotFree .a (modScan (fun c => { c with latch := .latched }) shown)
      ∧ (modScan (fun c => { c with latch := .latched }) shown).scan.latch ≠ .clear := by decide

theorem witness_TouchReportsAreCheckedWhole :
    TakesPackets shown ∧ shown.touch.reading = false ∧ (setReading true shown).touch.reading = true
      ∧ 10 < (11 : Byte).toNat ∧ (10 : Byte).toNat ≤ 10 ∧ [(⟨9, 2, 4095, 4095⟩ : TouchEntry)].length = (1 : Byte).toNat
      ∧ ¬ (9 < (9 : Byte).toNat ∨ 2 < (2 : Byte).toNat ∨ 4095 < (4095 : Half).toNat) ∧ 9 < (10 : Byte).toNat
      ∧ 2 < (3 : Byte).toNat ∧ 4095 < (4096 : Half).toNat := by decide

theorem witness_ContactTableFollowsItsCases :
    shown.touch.contacts.get 2 = .free ∧ shown.touch.contacts.get 1 = .discard
      ∧ shown.touch.contacts.get 0 = .bound 1 .a 5 6
      ∧ recordWithTag 1 (activeRecords shown.engine) = some (recA .active .idle)
      ∧ recordUnder shown.engine 24 2 = some recB ∧ regB.owner = some .b ∧ regB.touch = .route ∧ recB.gate = .opened
      ∧ shown.scan.latch = .clear ∧ recordUnder shown.engine 32 2 = none ∧ recordUnder shown.engine 0 3 = some recN
      ∧ regN.owner = none := by decide

theorem witness_TouchPositionMatchesReadout :
    RegionOk regA ∧ regA.orientation = .turned ∧ RegionOk regB ∧ regB.orientation = .upright
      ∧ containsPixel regA (pixelUnder ⟨367, 63⟩).1 (pixelUnder ⟨367, 63⟩).2 = true
      ∧ containsPixel regA (pixelUnder ⟨368, 64⟩).1 (pixelUnder ⟨368, 64⟩).2 = false
      ∧ recordUnder shown.engine 23 3 = some (recA .active .idle) ∧ recordUnder shown.engine 32 3 = none := by decide

theorem witness_CommandsAreTakenInOrder :
    (shown.port .a).state ≠ .offline ∧ (State.reset.port .a).state = .offline
      ∧ commandLink (.fetch .a 1) = some .a ∧ TakesPackets (onA portFull)
      ∧ 8 ≤ ((onA portFull).port .a).responses.length ∧ TakesCommand .a shown
      ∧ slotUser (.setQuiet .a 1 4) = some (.a, 1, .setQuiet) ∧ slotUser (.resume .a 1 true) = some (.a, 1, .resume)
      ∧ commandLink (.resume .a 1 true) = some .a
      ∧ TakesCommand .a (onA { portOn with slot := some (.waitPosture 6) }) := by decide

theorem witness_PortResetClearsItsLink :
    TakesCommand .a (switching true 4 none) ∧ (switching true 4 none).engine.pending = some (pend true 4)
      ∧ (pend true 4).acked.get .a = true ∧ (pend true 4).ackSet ≠ ⟨false, false⟩ ∧ (pend false 4).acked.get .a = false
      ∧ shown.touch.contacts.get 0 = .bound 1 .a 5 6 ∧ shown.engine.pending = none := by decide

theorem witness_StatusFetchAndResponsesSent :
    TakesCommand .a shown ∧ TakesPackets shown ∧ (shown.port .a).responses = []
      ∧ (onA portFull).ports.a.responses = anyResponse :: List.replicate 7 anyResponse
      ∧ (responsePayload { tag := 1, code := 0x65, status := .ok, results := .notices [moveNotice 3] 9 }).length = 37
      := by decide

/-- A full queue whose first notice is a MOVE. -/
def fullQueue : Port := { portOn with notices := moveNotice 3 :: List.replicate 31 (.sensor true .folded) }

theorem witness_NoticesArePlacedByKind :
    State.reset.ports.a.state = .offline ∧ portOn.state ≠ .offline ∧ (moveNotice 3).isMove = true
      ∧ (Notice.sensor true .folded).isMove = false ∧ 32 ≤ fullQueue.notices.length
      ∧ fullQueue.notices = [] ++ moveNotice 3 :: List.replicate 31 (.sensor true .folded)
      ∧ (moveNotice 3).concerns 0 = true ∧ (∀ x ∈ List.replicate 31 (Notice.sensor true .folded), x.concerns 0 = false)
      ∧ 24 ≤ (List.replicate 24 (moveNotice 3)).countP Notice.isMove ∧ portOn.notices.length < 32 := by decide

/-- A full queue without a MOVE. -/
theorem witness_NoticesArePlacedByKind_lost :
    let q := List.replicate 32 (Notice.sensor true .folded)
    32 ≤ q.length ∧ ∀ m ∈ q, m.isMove = false := by decide

set_option maxRecDepth 8000 in
theorem witness_BadPacketsAreCounted :
    TakesPackets shown ∧ 7452 < (halfOf 0x1D 0x1D).toNat ∧ (halfOf 0x1D 0x1C).toNat = 7452
      ∧ (halfOf 0 2).toNat ≤ 7452 ∧ ([9, 0x64, 0] : List Byte).length < (halfOf 0 2).toNat + 2
      ∧ ([0x09, 0x64] : List Byte).length = (halfOf 0 2).toNat ∧ halfOf 0 0 ≠ crc [0x01, 0, 0, 2, 0x09, 0x64]
      ∧ (let b : List Byte := [0x04, 0, 0, 2, 0x09, 0x64]
         halfOf ((crc b).extractLsb' 8 8) ((crc b).extractLsb' 0 8) = crc b)
      ∧ (let b : List Byte := [0x01, 0, 0, 2, 0x09, 0x20]
         halfOf ((crc b).extractLsb' 8 8) ((crc b).extractLsb' 0 8) = crc b)
      ∧ (decodeParams false .a 9 .switch [] = none ∧ decodeParams true .a 9 .switch [] = none)
      ∧ TakesCommand .a shown ∧ 8 ≤ ((onA portFull).port .a).responses.length := by decide

theorem witness_PacketDecodesToItsCommand :
    Instr.wellFormed (.ackEpoch .b 7 0x01020304) = true ∧ packetLink (.ackEpoch .b 7 0x01020304) = some .b
      ∧ encodePacket (.ackEpoch .b 7 0x01020304) = some (commandPacket .ackEpoch 7 [1, 2, 3, 4])
      ∧ carriesLevel false (.ackEpoch .b 7 0x01020304) = true ∧ carriesLevel true (.resume .a 1 true) = true
      ∧ shown.cutoffInput = false :=
  ⟨rfl, rfl, rfl, rfl, rfl, rfl⟩

/-- The laws hold with a command at the front of the queue, and the step answers a next state. -/
theorem witness_StepKeepsLaws :
    let s := { switching false 1 none with pending := [.frameStart noLinks] }
    (PortsOk s ∧ PostureOk s.posture ∧ SlotsOk s ∧ EngineOk s ∧ StoreOk s ∧ RecordsOk s ∧ ContactsOk s)
      ∧ ∃ t, step s = .next t :=
  ⟨⟨by decide, by decide, by decide, by decide, by decide, by decide, by decide⟩, _, rfl⟩

/-- After that step too: the switch keeps them. -/
theorem test_laws_after_switch :
    let t := stateAfter (exec (.frameStart noLinks) (switching false 1 none)) (switching false 1 none)
    PortsOk t ∧ PostureOk t.posture ∧ SlotsOk t ∧ EngineOk t ∧ StoreOk t ∧ RecordsOk t ∧ ContactsOk t :=
  ⟨by decide, by decide, by decide, by decide, by decide, by decide, by decide⟩

end Sys2Proof.Tests
end

section
/-! PROOFS. The slot table's statements (chapter 1): what its commands answer and write, in the order of their
checks. -/

namespace Sys2Proof.Machine

/-! ## Parameters read from a byte -/

theorem slotOfByte_eq_some {b : Byte} {n : SlotNo} : slotOfByte b = some n ↔ n.val = b.toNat := by
  unfold slotOfByte
  split
  case isTrue hb => simp [Fin.ext_iff, eq_comm]
  case isFalse hb => simpa using fun h : n.val = b.toNat => hb (h ▸ n.isLt)

theorem slotOfByte_of_val {b : Byte} {n : SlotNo} (h : n.val = b.toNat) : slotOfByte b = some n :=
  slotOfByte_eq_some.mpr h

theorem slotOfByte_of_ge {b : Byte} (h : 8 ≤ b.toNat) : slotOfByte b = none := by
  simp [slotOfByte, Nat.not_lt.mpr h]

theorem flagOfByte_of_le {b : Byte} (h : b.toNat ≤ 1) : flagOfByte b = some (decide (b.toNat = 1)) := by
  obtain h0 | h1 : b.toNat = 0 ∨ b.toNat = 1 := by omega
  · simp [flagOfByte, BitVec.toNat_eq, h0]
  · simp [flagOfByte, BitVec.toNat_eq, h1]

theorem flagOfByte_of_gt {b : Byte} (h : 1 < b.toNat) : flagOfByte b = none := by
  have h0 : b.toNat ≠ 0 := by omega
  have h1 : b.toNat ≠ 1 := by omega
  simp [flagOfByte, BitVec.toNat_eq, h0, h1]

/-! ## A command that the slot lets through, and one that writes the slot table -/

theorem slotCommand_runs {l : Link} {s : State} (h : SlotFree l s) (tag : Byte) (c : Command) (e : State → State) :
    (.next (slotCommand l tag c e s) : Answer) = .next (e (arrive l s)) :=
  congrArg Host.Outcome.next (slotCommand_free h tag c e)

theorem withSlots_sameBut (x : SlotTable) (s : State) : SameBut [.slots] s { s with slots := x } := by
  intro p hp
  cases p with
  | slots => exact absurd (List.mem_singleton_self _) hp
  | _ => rfl

/-- A command that writes the slot table and answers changes the table and its link's port alone. -/
theorem answer_withSlots (l : Link) (tag : Byte) (c : Command) (st : Status) (r : Results) (x : SlotTable) (s : State) :
    SameBut [.slots, .port l] s (answer l tag c st r { arrive l s with slots := x })
      ∧ (answer l tag c st r { arrive l s with slots := x }).slots = x
      ∧ AnswersWith l tag c st r s (answer l tag c st r { arrive l s with slots := x }) := by
  have harrive : SameBut [.slots, .port l] s (arrive l s) := (arrive_sameBut l s).mono (by simp)
  have hwrite : SameBut [.slots, .port l] (arrive l s) { arrive l s with slots := x } :=
    (withSlots_sameBut x _).mono (by simp)
  have hanswer := (answer_sameBut l tag c st r { arrive l s with slots := x }).mono (d := [.slots, .port l]) (by simp)
  exact ⟨(harrive.trans hwrite).trans hanswer, rfl, answersWith_answer rfl tag c st r⟩

/-! ## STAGE-OPEN and STAGE-DROP (R10, R17) -/

theorem stageOpenEffect_opens {l : Link} {s : State} {slot : Byte} {n : SlotNo} (hn : n.val = slot.toNat)
    (hfree : slotLocked s.slots n = false) (hunused : slotUse s.engine n = .none) (tag : Byte) (backdrop : Colour) :
    stageOpenEffect l tag slot backdrop (arrive l s) = answer l tag .stageOpen .ok .none { arrive l s with
      slots := { s.slots with
        staging := s.slots.staging.set l (some { slot := n, backdrop := backdrop, records := [] }) } } := by
  simp [stageOpenEffect, slotOfByte_of_val hn, hfree, hunused, setStaging]

theorem stageDropEffect_closes {l : Link} {s : State} (h : s.slots.staging.get l ≠ none) (tag : Byte) :
    stageDropEffect l tag (arrive l s) = answer l tag .stageDrop .ok .none { arrive l s with
      slots := { s.slots with staging := s.slots.staging.set l none } } := by
  obtain ⟨st, hst⟩ := Option.ne_none_iff_exists'.mp h
  simp [stageDropEffect, stagingOf, hst, setStaging]

/-- Settles O6: each check in turn decides STAGE-OPEN's effect, and whether the area is open decides STAGE-DROP's. -/
theorem stageOpenAndDropFollowTheirChecks : Obligations.StageOpenAndDropFollowTheirChecks := by
  refine ⟨fun l tag slot backdrop s h => ⟨_, slotCommand_runs h tag .stageOpen _, fun h8 => ?_, fun n hn =>
    ⟨fun hlocked => ?_, fun hfree hused => ?_, fun hfree hunused => ?_⟩⟩,
    fun l tag s h => ⟨_, slotCommand_runs h tag .stageDrop _, fun hclosed => ?_, fun hopen => ?_⟩⟩
  · simpa [stageOpenEffect, slotOfByte_of_ge h8] using refusedWith_answer l tag .stageOpen .badParam .none s
  · simpa [stageOpenEffect, slotOfByte_of_val hn, hlocked] using
      refusedWith_answer l tag .stageOpen .locked .none s
  · simpa [stageOpenEffect, slotOfByte_of_val hn, hfree, hused] using
      refusedWith_answer l tag .stageOpen .inUse .none s
  · rw [stageOpenEffect_opens hn hfree hunused]
    obtain ⟨hframe, hslots, hanswer⟩ := answer_withSlots l tag .stageOpen .ok .none _ s
    exact ⟨hframe, hanswer, hslots⟩
  · simpa [stageDropEffect, stagingOf, hclosed] using refusedWith_answer l tag .stageDrop .notOpen .none s
  · rw [stageDropEffect_closes hopen]
    obtain ⟨hframe, hslots, hanswer⟩ := answer_withSlots l tag .stageDrop .ok .none _ s
    exact ⟨hframe, hanswer, hslots⟩

/-! ## STAGE-REGION's field checks (R2, R3, R11)

Each field's reader returns what `regionNamed` names when the field passes, and nothing when it fails. -/

section
variable {r : RegionRecord}

theorem tagOfByte_of_passes (h : fieldPasses r 1) : tagOfByte r.tag = some (regionNamed r).tag := if_pos h

theorem tagOfByte_of_fails (h : ¬ fieldPasses r 1) : tagOfByte r.tag = none := if_neg h

theorem ownerOfByte_of_passes (h : fieldPasses r 2) : ownerOfByte r.owner = some (regionNamed r).owner := by
  simp only [fieldPasses] at h
  obtain h0 | h1 | h2 : r.owner.toNat = 0 ∨ r.owner.toNat = 1 ∨ r.owner.toNat = 2 := by omega
  · simp [ownerOfByte, regionNamed, BitVec.toNat_eq, h0]
  · simp [ownerOfByte, regionNamed, BitVec.toNat_eq, h1]
  · simp [ownerOfByte, regionNamed, BitVec.toNat_eq, h2]

theorem ownerOfByte_of_fails (h : ¬ fieldPasses r 2) : ownerOfByte r.owner = none := by
  simp only [fieldPasses] at h
  have h0 : r.owner.toNat ≠ 0 := by omega
  have h1 : r.owner.toNat ≠ 1 := by omega
  have h2 : r.owner.toNat ≠ 2 := by omega
  simp [ownerOfByte, BitVec.toNat_eq, h0, h1, h2]

/-- The region named has no owner exactly when the owner field says NONE. -/
theorem regionNamed_owner_eq_none : (regionNamed r).owner = none ↔ r.owner.toNat = 0 := by
  simp only [regionNamed]
  split_ifs <;> simp_all

/-- The region named is STREAMED exactly when the kind field says so. -/
theorem regionNamed_content_eq_streamed : (regionNamed r).content = .streamed ↔ r.kind.toNat = 0 := by
  simp only [regionNamed]
  split_ifs <;> simp_all

/-- A STORED region that passes field 3 has an owner (R3). -/
theorem regionNamed_owner_ne_none (h3 : fieldPasses r 3) (hk : r.kind.toNat = 1) : (regionNamed r).owner ≠ none :=
  fun h => by
    have := h3.2 (regionNamed_owner_eq_none.mp h)
    omega

theorem contentOf_of_passes (h3 : fieldPasses r 3) (h4 : fieldPasses r 4) :
    contentOf (regionNamed r).owner r.kind r.buffering = .ok (regionNamed r).content := by
  have hkind := h3.1
  obtain ⟨hstreamed, hstored⟩ := h4
  obtain hk | hk : r.kind.toNat = 0 ∨ r.kind.toNat = 1 := by omega
  · simp [contentOf, BitVec.toNat_eq, regionNamed, hk, hstreamed hk]
  · have hnone := regionNamed_owner_ne_none h3 hk
    obtain hb | hb := hstored (by omega)
    · have hsingle : (regionNamed r).content = .single := by simp [regionNamed, hk, hb]
      simp [contentOf, BitVec.toNat_eq, hnone, hk, hb, hsingle]
    · have hdouble : (regionNamed r).content = .double := by simp [regionNamed, hk, hb]
      simp [contentOf, BitVec.toNat_eq, hnone, hk, hb, hdouble]

theorem contentOf_of_fails_kind (h3 : ¬ fieldPasses r 3) :
    contentOf (regionNamed r).owner r.kind r.buffering = .error 3 := by
  simp only [fieldPasses] at h3
  have hk0 : r.kind.toNat ≠ 0 := by omega
  by_cases hk1 : r.kind.toNat = 1
  · have hnone : (regionNamed r).owner = none := regionNamed_owner_eq_none.mpr (by omega)
    simp [contentOf, BitVec.toNat_eq, hk1, hnone]
  · simp [contentOf, BitVec.toNat_eq, hk0, hk1]

theorem contentOf_of_fails_buffering (h3 : fieldPasses r 3) (h4 : ¬ fieldPasses r 4) :
    contentOf (regionNamed r).owner r.kind r.buffering = .error 4 := by
  have hkind := h3.1
  simp only [fieldPasses] at h4
  obtain hk | hk : r.kind.toNat = 0 ∨ r.kind.toNat = 1 := by omega
  · have hb : r.buffering.toNat ≠ 0 := by omega
    simp [contentOf, BitVec.toNat_eq, hk, hb]
  · have hnone := regionNamed_owner_ne_none h3 hk
    have hb1 : r.buffering.toNat ≠ 1 := by omega
    have hb2 : r.buffering.toNat ≠ 2 := by omega
    simp [contentOf, BitVec.toNat_eq, hk, hnone, hb1, hb2]

theorem orientationOfByte_of_le (h : r.orientation.toNat ≤ 1) :
    orientationOfByte r.orientation = some (regionNamed r).orientation := by
  obtain h0 | h1 : r.orientation.toNat = 0 ∨ r.orientation.toNat = 1 := by omega
  · simp [orientationOfByte, regionNamed, BitVec.toNat_eq, h0]
  · simp [orientationOfByte, regionNamed, BitVec.toNat_eq, h1]

theorem orientationOfByte_of_gt (h : 1 < r.orientation.toNat) : orientationOfByte r.orientation = none := by
  have h0 : r.orientation.toNat ≠ 0 := by omega
  have h1 : r.orientation.toNat ≠ 1 := by omega
  simp [orientationOfByte, BitVec.toNat_eq, h0, h1]

/-- Behind a defined orientation, field 9 fails exactly for a STREAMED region that is TURNED (R3). -/
theorem fieldPasses_orientation_iff (h : r.orientation.toNat ≤ 1) :
    fieldPasses r 9 ↔ ¬ ((regionNamed r).content = .streamed ∧ (regionNamed r).orientation = .turned) := by
  have hturned : (regionNamed r).orientation = .turned ↔ r.orientation.toNat ≠ 0 := by simp [regionNamed]
  simp [fieldPasses, regionNamed_content_eq_streamed, hturned, h]

theorem touchOfByte_of_passes (h : fieldPasses r 11) : touchOfByte r.touch = some (regionNamed r).touch := by
  simp only [fieldPasses] at h
  obtain h0 | h1 : r.touch.toNat = 0 ∨ r.touch.toNat = 1 := by omega
  · simp [touchOfByte, regionNamed, BitVec.toNat_eq, h0]
  · simp [touchOfByte, regionNamed, BitVec.toNat_eq, h1]

theorem touchOfByte_of_fails (h : ¬ fieldPasses r 11) : touchOfByte r.touch = none := by
  simp only [fieldPasses] at h
  have h0 : r.touch.toNat ≠ 0 := by omega
  have h1 : r.touch.toNat ≠ 1 := by omega
  simp [touchOfByte, BitVec.toNat_eq, h0, h1]

end

open Classical in
/-- The checks of a region record are those of its fields in the order of their numbers; field 10, the fill, has none
to fail. -/
theorem checkRegion_eq (r : RegionRecord) : checkRegion r =
    if ¬ fieldPasses r 1 then .error 1 else if ¬ fieldPasses r 2 then .error 2
    else if ¬ fieldPasses r 3 then .error 3 else if ¬ fieldPasses r 4 then .error 4
    else if ¬ fieldPasses r 5 then .error 5 else if ¬ fieldPasses r 6 then .error 6
    else if ¬ fieldPasses r 7 then .error 7 else if ¬ fieldPasses r 8 then .error 8
    else if ¬ fieldPasses r 9 then .error 9 else if ¬ fieldPasses r 11 then .error 11
    else .ok (regionNamed r) := by
  have hcol0 : (r.col0.toNat ≤ 2472 ∧ r.col0.toNat % 8 = 0) ↔ fieldPasses r 5 := Iff.rfl
  have hwidth : (8 ≤ r.width.toNat ∧ r.width.toNat ≤ Config.panelColumns ∧ r.width.toNat % 8 = 0
      ∧ r.col0.toNat + r.width.toNat ≤ Config.panelColumns) ↔ fieldPasses r 6 := Iff.rfl
  have hrow0 : r.row0.toNat < Config.panelRows ↔ fieldPasses r 7 := Nat.lt_succ_iff
  have hheight : (1 ≤ r.height.toNat ∧ r.height.toNat ≤ Config.panelRows
      ∧ r.row0.toNat + r.height.toNat ≤ Config.panelRows) ↔ fieldPasses r 8 := Iff.rfl
  simp only [checkRegion, hcol0, hwidth, hrow0, hheight]
  by_cases h1 : fieldPasses r 1
  case neg => simp [tagOfByte_of_fails, h1]
  by_cases h2 : fieldPasses r 2
  case neg => simp [tagOfByte_of_passes, ownerOfByte_of_fails, h1, h2]
  by_cases h3 : fieldPasses r 3
  case neg =>
    simp [tagOfByte_of_passes, ownerOfByte_of_passes, contentOf_of_fails_kind, h1, h2, h3]
  by_cases h4 : fieldPasses r 4
  case neg =>
    simp [tagOfByte_of_passes, ownerOfByte_of_passes, contentOf_of_fails_buffering, h1, h2, h3, h4]
  simp only [tagOfByte_of_passes h1, ownerOfByte_of_passes h2, contentOf_of_passes h3 h4, h1, h2, h3, h4, not_true,
    if_false]
  congr 4
  by_cases hle : r.orientation.toNat ≤ 1
  case neg =>
    have h9 : ¬ fieldPasses r 9 := fun h => hle h.1
    simp [orientationOfByte_of_gt (Nat.lt_of_not_le hle), h9]
  simp only [orientationOfByte_of_le hle, fieldPasses_orientation_iff hle, not_not]
  congr 1
  by_cases h11 : fieldPasses r 11
  case neg => simp [touchOfByte_of_fails, h11]
  simp only [touchOfByte_of_passes h11, h11, not_true, if_false]
  rfl

theorem checkRegion_of_allPass {r : RegionRecord} (h : AllPass (fieldPasses r) 11) :
    checkRegion r = .ok (regionNamed r) := by
  have hpass : ∀ m, 1 ≤ m → m ≤ 11 → fieldPasses r m := h
  simp [checkRegion_eq, hpass]

theorem checkRegion_of_firstFailing {r : RegionRecord} {n : Nat} (h : FirstFailing (fieldPasses r) 11 n) :
    checkRegion r = .error n := by
  obtain ⟨hfrom, hto, hfails, hbelow⟩ := h
  have hfill : n ≠ 10 := by
    rintro rfl
    exact hfails trivial
  obtain hlow | rfl : n ≤ 9 ∨ n = 11 := by omega
  · interval_cases n <;> simp [checkRegion_eq, hfails, hbelow]
  · simp [checkRegion_eq, hfails, hbelow]

/-! ## STAGE-REGION (R11) -/

theorem stageRegionEffect_appends {l : Link} {s : State} {st : Staging} {r : RegionRecord}
    (hst : s.slots.staging.get l = some st) (hpass : AllPass (fieldPasses r) 11) (hroom : st.records.length < 8)
    (tag : Byte) :
    stageRegionEffect l tag r (arrive l s) =
      answer l tag .stageRegion .ok (.count (st.records.length + 1)) { arrive l s with
        slots := { s.slots with
          staging := s.slots.staging.set l (some { st with records := st.records ++ [regionNamed r] }) } } := by
  have hmax : ¬ Config.maxRegions ≤ st.records.length := Nat.not_le.mpr hroom
  simp [stageRegionEffect, stagingOf, hst, checkRegion_of_allPass hpass, hmax, setStaging]

/-- Settles O7: the area must be open, then the record's fields decide, then the list's length. -/
theorem stageRegionChecksThenAppends : Obligations.StageRegionChecksThenAppends := by
  refine fun l tag r s h => ⟨_, slotCommand_runs h tag .stageRegion _, fun hclosed => ?_, fun st hst =>
    ⟨fun n hfail => ?_, fun hpass hfull => ?_, fun hpass hroom => ?_⟩⟩
  · simpa [stageRegionEffect, stagingOf, hclosed] using refusedWith_answer l tag .stageRegion .notOpen .none s
  · simpa [stageRegionEffect, stagingOf, hst, checkRegion_of_firstFailing hfail] using
      refusedWith_answer l tag .stageRegion .badParam (.field n) s
  · have hmax : Config.maxRegions ≤ st.records.length := hfull
    simpa [stageRegionEffect, stagingOf, hst, checkRegion_of_allPass hpass, hmax] using
      refusedWith_answer l tag .stageRegion .listFull .none s
  · rw [stageRegionEffect_appends hst hpass hroom]
    obtain ⟨hframe, hslots, hanswer⟩ :=
      answer_withSlots l tag .stageRegion .ok (.count (st.records.length + 1)) _ s
    exact ⟨hframe, hanswer, hslots⟩

/-! ## The pairs that STAGE-COMMIT looks for (R13, R14) -/

theorem overlaps_eq_true {x y : Region} : overlaps x y = true ↔ SharesPixel x y := decide_eq_true_iff

theorem sameTag_eq_true {x y : Region} : sameTag x y = true ↔ x.tag = y.tag := beq_iff_eq

section
variable {clash : Region → Region → Bool} {rel : Region → Region → Prop}

theorem pairAt_nil (i j : Nat) : ¬ PairAt rel [] i j := by
  rintro ⟨-, x, y, hx, -, -⟩
  simp at hx

/-- A pair of a list is one of its head with an entry of its tail, or one of its tail. -/
theorem pairAt_cons_iff {x : Region} {xs : List Region} {i j : Nat} :
    PairAt rel (x :: xs) i j ↔
      (∃ n y, i = 0 ∧ j = n + 1 ∧ xs[n]? = some y ∧ rel x y)
        ∨ ∃ m n, i = m + 1 ∧ j = n + 1 ∧ PairAt rel xs m n := by
  constructor
  · rintro ⟨hij, u, v, hu, hv, huv⟩
    obtain ⟨n, rfl⟩ : ∃ n, j = n + 1 := ⟨j - 1, by omega⟩
    cases i with
    | zero =>
      obtain rfl : x = u := by simpa using hu
      exact .inl ⟨n, v, rfl, rfl, by simpa using hv, huv⟩
    | succ m => exact .inr ⟨m, n, rfl, rfl, by omega, u, v, by simpa using hu, by simpa using hv, huv⟩
  · rintro (⟨n, y, rfl, rfl, hy, hxy⟩ | ⟨m, n, rfl, rfl, hmn, u, v, hu, hv, huv⟩)
    · exact ⟨by omega, x, y, rfl, by simpa using hy, hxy⟩
    · exact ⟨by omega, u, v, by simpa using hu, by simpa using hv, huv⟩

theorem FirstPairAt.unique {rs : List Region} {i j i' j' : Nat} (h : FirstPairAt rel rs i j)
    (h' : FirstPairAt rel rs i' j') : i' = i ∧ j' = j := by
  have hle := h.2 i' j' h'.1
  have hge := h'.2 i j h.1
  omega

theorem firstClash_eq_none {x : Region} {i : Nat} {ys : List Region} (h : firstClash clash x i ys = none) :
    ∀ y ∈ ys, clash x y = false := by
  induction ys generalizing i with
  | nil => simp
  | cons y ys ih =>
    by_cases hy : clash x y = true
    · simp [firstClash, hy] at h
    · simp only [firstClash, hy] at h
      exact List.forall_mem_cons.mpr ⟨by simpa using hy, ih h⟩

/-- The entry found clashes, and no entry before it does. -/
theorem firstClash_eq_some {x : Region} {i k : Nat} {ys : List Region} (h : firstClash clash x i ys = some k) :
    ∃ n y, k = i + n + 1 ∧ ys[n]? = some y ∧ clash x y = true
      ∧ ∀ m z, ys[m]? = some z → clash x z = true → n ≤ m := by
  induction ys generalizing i with
  | nil => simp [firstClash] at h
  | cons y ys ih =>
    by_cases hy : clash x y = true
    · exact ⟨0, y, by simpa [firstClash, hy, eq_comm] using h, rfl, hy, fun m _ _ _ => Nat.zero_le m⟩
    · simp only [firstClash, hy] at h
      obtain ⟨n, z, rfl, hz, hclash, hleast⟩ := ih h
      refine ⟨n + 1, z, by omega, by simpa using hz, hclash, fun m w hw hwc => ?_⟩
      cases m with
      | zero =>
        obtain rfl : y = w := by simpa using hw
        exact absurd hwc hy
      | succ m => exact Nat.succ_le_succ (hleast m w (by simpa using hw) hwc)

variable (hrel : ∀ {x y}, clash x y = true ↔ rel x y)
include hrel

theorem firstPair_eq_none {k : Nat} {rs : List Region} (h : firstPair clash k rs = none) :
    ∀ i j, ¬ PairAt rel rs i j := by
  induction rs generalizing k with
  | nil => exact pairAt_nil
  | cons x xs ih =>
    simp only [firstPair] at h
    split at h
    case h_1 => simp at h
    case h_2 hnone =>
      intro i j hpair
      obtain ⟨n, y, -, -, hy, hxy⟩ | ⟨m, n, -, -, hmn⟩ := pairAt_cons_iff.mp hpair
      · have hno := firstClash_eq_none hnone y (List.mem_of_getElem? hy)
        simp [hrel.mpr hxy] at hno
      · exact ih h m n hmn

/-- The search counts its indices from `k`, and finds the first pair. -/
theorem firstPair_eq_some {k i j : Nat} {rs : List Region} (h : firstPair clash k rs = some (i, j)) :
    ∃ m n, i = k + m ∧ j = k + n ∧ FirstPairAt rel rs m n := by
  induction rs generalizing k with
  | nil => simp [firstPair] at h
  | cons x xs ih =>
    simp only [firstPair] at h
    split at h
    case h_1 p hp =>
      obtain ⟨rfl, rfl⟩ : k = i ∧ p = j := by simpa using h
      obtain ⟨n, y, rfl, hy, hclash, hleast⟩ := firstClash_eq_some hp
      refine ⟨0, n + 1, rfl, by omega, pairAt_cons_iff.mpr (.inl ⟨n, y, rfl, rfl, hy, hrel.mp hclash⟩), ?_⟩
      intro i' j' hpair
      obtain ⟨n', z, rfl, rfl, hz, hxz⟩ | ⟨m', n', rfl, -, -⟩ := pairAt_cons_iff.mp hpair
      · exact .inr ⟨rfl, Nat.succ_le_succ (hleast n' z hz (hrel.mpr hxz))⟩
      · exact .inl (by omega)
    case h_2 hnone =>
      obtain ⟨m, n, rfl, rfl, hpair, hfirst⟩ := ih h
      refine ⟨m + 1, n + 1, by omega, by omega, pairAt_cons_iff.mpr (.inr ⟨m, n, rfl, rfl, hpair⟩), ?_⟩
      intro i' j' hpair'
      obtain ⟨n', z, -, -, hz, hxz⟩ | ⟨m', n', rfl, rfl, htail⟩ := pairAt_cons_iff.mp hpair'
      · have hno := firstClash_eq_none hnone z (List.mem_of_getElem? hz)
        simp [hrel.mpr hxz] at hno
      · have := hfirst m' n' htail
        omega

theorem firstPair_of_firstPairAt {rs : List Region} {i j : Nat} (h : FirstPairAt rel rs i j) :
    firstPair clash 0 rs = some (i, j) := by
  cases hp : firstPair clash 0 rs with
  | none => exact absurd h.1 (firstPair_eq_none hrel hp i j)
  | some p =>
    obtain ⟨m, n, hm, hn, hfirst⟩ := firstPair_eq_some hrel hp
    obtain ⟨rfl, rfl⟩ := h.unique hfirst
    simp [Prod.ext_iff, hm, hn]

theorem firstPair_of_no_pairAt {rs : List Region} (h : ∀ i j, ¬ PairAt rel rs i j) :
    firstPair clash 0 rs = none := by
  cases hp : firstPair clash 0 rs with
  | none => rfl
  | some p =>
    obtain ⟨m, n, -, -, hpair, -⟩ := firstPair_eq_some hrel hp
    exact absurd hpair (h m n)

end

/-! ## The sorted list of a commit (R5) -/

/-- Sorting by R5 is insertion sort by `sortsBefore`. -/
theorem sortRegions_eq (rs : List Region) : sortRegions rs = rs.insertionSort (sortsBefore · ·) := by
  have hinsert : ∀ x ys, insertRegion x ys = ys.orderedInsert (sortsBefore · ·) x := fun x ys => by
    induction ys with
    | nil => rfl
    | cons y ys ih => simp [insertRegion, ih]
  induction rs with
  | nil => rfl
  | cons x xs ih => exact (hinsert x _).trans (congrArg _ ih)

theorem sortRegions_perm (rs : List Region) : (sortRegions rs).Perm rs :=
  sortRegions_eq rs ▸ List.perm_insertionSort _ rs

theorem sortRegions_sorted (rs : List Region) : SortedByPlace (sortRegions rs) := by
  have htotal : Std.Total (fun x y : Region => sortsBefore x y = true) := ⟨fun x y => by
    simp only [sortsBefore, decide_eq_true_eq]
    omega⟩
  have htrans : IsTrans Region (fun x y => sortsBefore x y = true) := ⟨fun x y z => by
    simp only [sortsBefore, decide_eq_true_eq]
    omega⟩
  rw [sortRegions_eq]
  exact (List.pairwise_insertionSort (sortsBefore · ·) rs).imp fun h => of_decide_eq_true h

/-! ## STAGE-COMMIT (R12 to R15) -/

/-- The slot table after a commit. -/
def slotsCommitted (l : Link) (st : Staging) (x : SlotTable) : SlotTable :=
  { x with
    slots := x.slots.set st.slot.val (committedLayout st (x.slots.get st.slot)) st.slot.isLt
    staging := x.staging.set l none }

section
variable {l : Link} {s : State} {st : Staging} (hst : s.slots.staging.get l = some st)
  (hfree : slotLocked s.slots st.slot = false) (hunused : slotUse s.engine st.slot = .none)
include hst hfree hunused

/-- Behind its first three checks, STAGE-COMMIT looks at the staged list alone. -/
theorem stageCommitEffect_overlap {i j : Nat} (hpair : FirstPairAt SharesPixel st.records i j) (tag : Byte) :
    stageCommitEffect l tag (arrive l s) =
      answer l tag .stageCommit .overlap (.indexPair i j) (arrive l s) := by
  simp [stageCommitEffect, stagingOf, hst, hfree, hunused, firstPair_of_firstPairAt overlaps_eq_true hpair]

variable (hapart : ∀ i j, ¬ PairAt SharesPixel st.records i j)
include hapart

theorem stageCommitEffect_dupTag {i j : Nat} (hpair : FirstPairAt (fun x y => x.tag = y.tag) st.records i j)
    (tag : Byte) :
    stageCommitEffect l tag (arrive l s) = answer l tag .stageCommit .dupTag (.indexPair i j) (arrive l s) := by
  simp [stageCommitEffect, stagingOf, hst, hfree, hunused, firstPair_of_no_pairAt overlaps_eq_true hapart,
    firstPair_of_firstPairAt sameTag_eq_true hpair]

variable (hdistinct : ∀ i j, ¬ PairAt (fun x y => x.tag = y.tag) st.records i j)
include hdistinct

theorem stageCommitEffect_storeFull (hneed : 1536 < layoutNeed st.records) (tag : Byte) :
    stageCommitEffect l tag (arrive l s) =
      answer l tag .stageCommit .storeFull (.need (layoutNeed st.records)) (arrive l s) := by
  have hblocks : Config.storeBlocks < layoutNeed st.records := hneed
  simp [stageCommitEffect, stagingOf, hst, hfree, hunused, firstPair_of_no_pairAt overlaps_eq_true hapart,
    firstPair_of_no_pairAt sameTag_eq_true hdistinct, hblocks]

theorem stageCommitEffect_commits (hneed : layoutNeed st.records ≤ 1536) (tag : Byte) :
    stageCommitEffect l tag (arrive l s) =
      answer l tag .stageCommit .ok
        (.committed st.slot ((s.slots.slots.get st.slot).generation + 1) (sortRegions st.records).length)
        { arrive l s with slots := slotsCommitted l st s.slots } := by
  have hblocks : ¬ Config.storeBlocks < layoutNeed st.records := Nat.not_lt.mpr hneed
  simp [stageCommitEffect, stagingOf, hst, hfree, hunused, firstPair_of_no_pairAt overlaps_eq_true hapart,
    firstPair_of_no_pairAt sameTag_eq_true hdistinct, hblocks, slotsCommitted, committedLayout, layoutOf, setLayout,
    setStaging]

end

/-- Settles O8: the six checks in their order, each decided before the next is looked at, then the write. -/
theorem stageCommitChecksThenWritesSlot : Obligations.StageCommitChecksThenWritesSlot := by
  refine fun l tag s h => ⟨_, slotCommand_runs h tag .stageCommit _, fun hclosed => ?_, fun st hst =>
    ⟨fun hlocked => ?_, fun hfree => ⟨fun hused => ?_, fun hunused => ⟨fun i j hpair => ?_, fun hapart =>
      ⟨fun i j hpair => ?_, fun hdistinct => ⟨fun hneed => ?_, fun hneed => ?_⟩⟩⟩⟩⟩⟩
  · simpa [stageCommitEffect, stagingOf, hclosed] using refusedWith_answer l tag .stageCommit .notOpen .none s
  · simpa [stageCommitEffect, stagingOf, hst, hlocked] using
      refusedWith_answer l tag .stageCommit .locked (.slotNumber st.slot) s
  · simpa [stageCommitEffect, stagingOf, hst, hfree, hused] using
      refusedWith_answer l tag .stageCommit .inUse (.slotUse (slotUse s.engine st.slot)) s
  · rw [stageCommitEffect_overlap hst hfree hunused hpair]
    exact refusedWith_answer l tag .stageCommit .overlap (.indexPair i j) s
  · rw [stageCommitEffect_dupTag hst hfree hunused hapart hpair]
    exact refusedWith_answer l tag .stageCommit .dupTag (.indexPair i j) s
  · rw [stageCommitEffect_storeFull hst hfree hunused hapart hdistinct hneed]
    exact refusedWith_answer l tag .stageCommit .storeFull (.need (layoutNeed st.records)) s
  · rw [stageCommitEffect_commits hst hfree hunused hapart hdistinct hneed]
    obtain ⟨hframe, hslots, hanswer⟩ := answer_withSlots l tag .stageCommit .ok
      (.committed st.slot ((s.slots.slots.get st.slot).generation + 1) (sortRegions st.records).length)
      (slotsCommitted l st s.slots) s
    exact ⟨hframe, sortRegions st.records, sortRegions_perm _, sortRegions_sorted _, hslots, hanswer⟩

/-! ## SLOTS-OPEN, SLOTS-CLOSE, SLOTS-FREEZE and PROTECT (R19 to R23) -/

theorem slotLocked_of_inside_open {x : SlotTable} (h : x.outside = false) (n : SlotNo) :
    slotLocked x n = true ↔ n < x.low ∨ x.high < n := by
  simp [slotLocked, h]

theorem slotLocked_of_outside_open {x : SlotTable} (h : x.outside = true) (n : SlotNo) :
    slotLocked x n = true ↔ x.low ≤ n ∧ n ≤ x.high := by
  simp [slotLocked, h]

/-- The range 0 to 7 with the outside flag set leaves no slot open (R21, R23). -/
theorem slotLocked_of_closed (x : SlotTable) (n : SlotNo) :
    slotLocked { x with low := 0, high := 7, outside := true } n = true :=
  (slotLocked_of_outside_open rfl n).mpr ⟨Fin.zero_le n, Fin.le_last n⟩

/-- Any one parameter out of range, the ends out of order, or an undefined flag is refused (R20, R169). -/
theorem slotsOpenEffect_badParam {s : State} {low high outside : Byte} (hf : s.slots.freeze = false)
    (hbad : 7 < low.toNat ∨ 7 < high.toNat ∨ high.toNat < low.toNat ∨ 1 < outside.toNat) (l : Link) (tag : Byte) :
    slotsOpenEffect l tag low high outside s = answer l tag .slotsOpen .badParam .none s := by
  unfold slotsOpenEffect
  rw [if_neg (by simp [hf])]
  split
  case h_1 lo hi out hlo hhi hout =>
    have hlow := slotOfByte_eq_some.mp hlo
    have hhigh := slotOfByte_eq_some.mp hhi
    have hflag : outside.toNat ≤ 1 := by
      by_contra hgt
      simp [flagOfByte_of_gt (Nat.lt_of_not_le hgt)] at hout
    have hapart : ¬ lo ≤ hi := by
      rw [Fin.le_def]
      omega
    rw [if_neg hapart]
  case h_2 => rfl

theorem slotsOpenEffect_opens {l : Link} {s : State} {low high outside : Byte} {lo hi : SlotNo}
    (hf : s.slots.freeze = false) (hlo : lo.val = low.toNat) (hhi : hi.val = high.toNat) (hle : lo ≤ hi)
    (hflag : outside.toNat ≤ 1) (tag : Byte) :
    slotsOpenEffect l tag low high outside (arrive l s) =
      answer l tag .slotsOpen .ok (.range lo hi (decide (outside.toNat = 1)) false) { arrive l s with
        slots := { s.slots with low := lo, high := hi, outside := decide (outside.toNat = 1) } } := by
  simp [slotsOpenEffect, hf, slotOfByte_of_val hlo, slotOfByte_of_val hhi, hle, flagOfByte_of_le hflag, answerRange,
    rangeResults, setRange]

theorem slotsCloseEffect_closes {l : Link} {s : State} (hf : s.slots.freeze = false) (tag : Byte) :
    slotsCloseEffect l tag (arrive l s) = answer l tag .slotsClose .ok (.range 0 7 true false) { arrive l s with
      slots := { s.slots with low := 0, high := 7, outside := true } } := by
  simp [slotsCloseEffect, hf, answerRange, rangeResults, setRange]

theorem slotsFreezeEffect_freezes {l : Link} {s : State} (hf : s.slots.freeze = false) (tag : Byte) :
    slotsFreezeEffect l tag (arrive l s) =
      answer l tag .slotsFreeze .ok (.range s.slots.low s.slots.high s.slots.outside true) { arrive l s with
        slots := { s.slots with freeze := true } } := by
  simp [slotsFreezeEffect, hf, answerRange, rangeResults, setFreeze]

/-- Settles O9: freeze decides first, then the parameters; PROTECT writes the slot table alone. -/
theorem rangeCommandsAndProtect : Obligations.RangeCommandsAndProtect := by
  refine ⟨fun x n => ⟨fun h => slotLocked_of_inside_open h n, fun h => slotLocked_of_outside_open h n⟩,
    fun l tag low high outside s h => ⟨_, slotCommand_runs h tag .slotsOpen _, fun hf => ?_, fun hf hbad => ?_,
      fun lo hi hf hlo hhi hle hflag => ?_⟩,
    fun l tag s h => ⟨_, slotCommand_runs h tag .slotsClose _, fun hf => ?_, fun hf => ?_⟩,
    fun l tag s h => ⟨_, slotCommand_runs h tag .slotsFreeze _, fun hf => ?_, fun hf => ?_⟩,
    fun s => ⟨_, rfl, ?_, fun hf => ?_, fun hf => ?_⟩⟩
  · simpa [slotsOpenEffect, hf] using refusedWith_answer l tag .slotsOpen .locked .none s
  · rw [slotsOpenEffect_badParam (by simpa using hf) hbad]
    exact refusedWith_answer l tag .slotsOpen .badParam .none s
  · rw [slotsOpenEffect_opens hf hlo hhi hle hflag]
    exact answer_withSlots l tag .slotsOpen .ok _ _ s
  · simpa [slotsCloseEffect, hf] using refusedWith_answer l tag .slotsClose .locked .none s
  · rw [slotsCloseEffect_closes hf]
    obtain ⟨hframe, hslots, hanswer⟩ := answer_withSlots l tag .slotsClose .ok (.range 0 7 true false) _ s
    exact ⟨hframe, hslots, fun n => hslots ▸ slotLocked_of_closed s.slots n, hanswer⟩
  · simpa [slotsFreezeEffect, hf] using refusedWith_answer l tag .slotsFreeze .locked .none s
  · rw [slotsFreezeEffect_freezes hf]
    exact answer_withSlots l tag .slotsFreeze .ok _ _ s
  · split
    · exact withSlots_sameBut _ s
    · exact SameBut.refl _ s
  · simp [hf, setFreeze, setRange]
  · simp [hf]

end Sys2Proof.Machine
end

section
/-! PROOFS. The posture monitor's statements (chapter 2): the candidate posture of a filtered value. -/

namespace Sys2Proof.Machine

/-! ## The candidate posture (R30) -/

/-- The posture never returns to UNKNOWN, whatever the thresholds. -/
theorem candidate_ne_unknown (p : Posture) (h : HingeSettings) (f : Nat) : candidate p h f ≠ .unknown := by
  cases p <;> unfold candidate <;> split_ifs <;> simp

/-- No hysteresis binds UNKNOWN and PARTIAL, which share their row of the table. -/
theorem candidate_part_of_between {p : Posture} {h : HingeSettings} {f : Nat} (hp : p = .unknown ∨ p = .part)
    (hlow : h.foldEnter < f) (hhigh : f < h.flatEnter) : candidate p h f = .part := by
  obtain rfl | rfl := hp <;> simp [candidate, Nat.not_le.mpr hlow, Nat.not_le.mpr hhigh]

section
variable {h : HingeSettings} {f : Nat}

/-- FOLDED holds on until FOLD_EXIT. -/
theorem candidate_folded_stays (hexit : f < h.foldExit) (hhigh : f < h.flatEnter) :
    candidate .folded h f = .folded := by
  simp [candidate, hexit, hhigh]

theorem candidate_folded_part (hexit : h.foldExit ≤ f) (hhigh : f < h.flatEnter) :
    candidate .folded h f = .part := by
  simp [candidate, Nat.not_lt.mpr hexit, Nat.not_le.mpr hhigh]

/-- FLAT holds on until FLAT_EXIT. -/
theorem candidate_flat_stays (hexit : h.flatExit < f) (hlow : h.foldEnter < f) : candidate .flat h f = .flat := by
  simp [candidate, hexit, hlow]

theorem candidate_flat_part (hlow : h.foldEnter < f) (hexit : f ≤ h.flatExit) : candidate .flat h f = .part := by
  simp [candidate, Nat.not_le.mpr hlow, Nat.not_lt.mpr hexit]

variable (hfold : h.foldEnter < h.foldExit) (hmid : h.foldExit < h.flatExit) (hflat : h.flatExit < h.flatEnter)
include hfold hmid hflat

/-- At FOLD_ENTER and below every posture has the candidate FOLDED. -/
theorem candidate_of_le_foldEnter (hlow : f ≤ h.foldEnter) (p : Posture) : candidate p h f = .folded := by
  cases p with
  | folded => exact candidate_folded_stays (by omega) (by omega)
  | unknown | part | flat => simp [candidate, hlow]

/-- At FLAT_ENTER and above every posture has the candidate FLAT. -/
theorem candidate_of_flatEnter_le (hhigh : h.flatEnter ≤ f) (p : Posture) : candidate p h f = .flat := by
  have hlow : h.foldEnter < f := by omega
  cases p with
  | flat => exact candidate_flat_stays (by omega) hlow
  | folded => simp [candidate, hhigh, Nat.not_lt.mpr hhigh]
  | unknown | part => simp [candidate, hhigh, Nat.not_le.mpr hlow]

end

/-- Settles O15: outside the two bands every row agrees; inside them FOLDED and FLAT hold on to themselves. -/
theorem candidateFollowsTable : Obligations.CandidateFollowsTable := by
  intro h f hfold hmid hflat
  have hlow := candidate_of_le_foldEnter (f := f) hfold hmid hflat
  have hhigh := candidate_of_flatEnter_le (f := f) hfold hmid hflat
  exact ⟨fun p hp => ⟨fun hle => hlow hle p, fun hge => hhigh hge p, candidate_part_of_between hp⟩,
    fun hexit => candidate_folded_stays hexit (by omega), fun hge => hhigh hge .folded, candidate_folded_part,
    fun hle => hlow hle .flat, fun hexit => candidate_flat_stays hexit (by omega), candidate_flat_part,
    fun p => candidate_ne_unknown p h f⟩

end Sys2Proof.Machine
end

section
/-! PROOFS. The statements about ACK-EPOCH (chapter 3) and about the commands that write a setting or wait: each effect
by its cases, then the frame and the answer that a command writing one block leaves. -/

namespace Sys2Proof.Machine

/-! ## A command that writes one block and answers -/

theorem withEngine_sameBut (x : Engine) (s : State) : SameBut [.engine] s { s with engine := x } := by
  intro p hp
  cases p with
  | engine => exact absurd (List.mem_singleton_self _) hp
  | _ => rfl

theorem withTouch_sameBut (x : Touch) (s : State) : SameBut [.touch] s { s with touch := x } := by
  intro p hp
  cases p with
  | touch => exact absurd (List.mem_singleton_self _) hp
  | _ => rfl

theorem withScan_sameBut (x : Scan) (s : State) : SameBut [.scan] s { s with scan := x } := by
  intro p hp
  cases p with
  | scan => exact absurd (List.mem_singleton_self _) hp
  | _ => rfl

/-- A command that writes one part besides its link's port, and answers, changes those two alone. -/
theorem answer_withWrite {l : Link} {p : Part} {s u : State} (hwrite : SameBut [p] (arrive l s) u)
    (hport : p ≠ .port l) (tag : Byte) (c : Command) (st : Status) (r : Results) :
    SameBut [p, .port l] s (answer l tag c st r u) ∧ AnswersWith l tag c st r s (answer l tag c st r u) := by
  have harrive : SameBut [p, .port l] s (arrive l s) := (arrive_sameBut l s).mono (by simp)
  have hanswer : SameBut [p, .port l] u (answer l tag c st r u) := (answer_sameBut l tag c st r u).mono (by simp)
  have hkept : u.port l = (arrive l s).port l := hwrite.port l (by simpa using hport.symm)
  exact ⟨(harrive.trans (hwrite.mono (by simp))).trans hanswer, answersWith_answer hkept tag c st r⟩

/-! ## ACK-EPOCH (R56) -/

theorem acknowledge_of_member {l : Link} {p : Pending} (h : p.ackSet.get l = true) :
    acknowledge l p = { p with
      acked := p.acked.set l true, armed := p.armed || decide (p.acked.set l true = p.ackSet) } := if_pos h

theorem acknowledge_of_not_member {l : Link} {p : Pending} (h : p.ackSet.get l = false) : acknowledge l p = p := by
  simp [acknowledge, h]

section
variable {l : Link} {s : State} {p : Pending} (hp : s.engine.pending = some p)
include hp

theorem ackEpochEffect_otherEpoch {epoch : Word} (hne : epoch ≠ p.epoch) (tag : Byte) :
    ackEpochEffect l tag epoch (arrive l s) =
      answer l tag .ackEpoch .badEpoch (.epochs s.engine.activeEpoch (some p.epoch)) (arrive l s) := by
  simp [ackEpochEffect, hp, hne]

theorem ackEpochEffect_acknowledges (tag : Byte) :
    ackEpochEffect l tag p.epoch (arrive l s) =
      answer l tag .ackEpoch .ok
        (.acked p.epoch (transitionState { s.engine with pending := some (acknowledge l p) }))
        { arrive l s with engine := { s.engine with pending := some (acknowledge l p) } } := by
  simp [ackEpochEffect, hp]

/-- A link outside the ack set is answered OK and leaves the engine as it was. -/
theorem ackEpochEffect_not_member (hout : p.ackSet.get l = false) (tag : Byte) :
    ackEpochEffect l tag p.epoch (arrive l s) =
      answer l tag .ackEpoch .ok (.acked p.epoch (transitionState s.engine)) (arrive l s) := by
  have hsame : { s.engine with pending := some p } = s.engine := by rw [← hp]
  have hwritten : { arrive l s with engine := s.engine } = arrive l s := by rw [← arrive_engine s l]
  rw [ackEpochEffect_acknowledges hp, acknowledge_of_not_member hout, hsame, hwritten]

end

/-- Settles O22: the pending epoch decides first, then whether the link is in the ack set. -/
theorem ackEpochJoinsAcknowledgedSet : Obligations.AckEpochJoinsAcknowledgedSet := by
  refine fun l tag epoch s h => ⟨_, congrArg Host.Outcome.next (takeCommand_taken h _), fun hsteady => ?_, fun p hp =>
    ⟨fun hother => ?_, fun hepoch hout => ?_, fun hepoch hmember => ?_⟩⟩
  · simpa [ackEpochEffect, hsteady] using
      refusedWith_answer l tag .ackEpoch .badEpoch (.epochs s.engine.activeEpoch none) s
  · rw [ackEpochEffect_otherEpoch hp hother]
    exact refusedWith_answer l tag .ackEpoch .badEpoch _ s
  · subst hepoch
    rw [ackEpochEffect_not_member hp hout]
    exact refusedWith_answer l tag .ackEpoch .ok _ s
  · subst hepoch
    rw [ackEpochEffect_acknowledges hp]
    obtain ⟨hframe, hanswer⟩ := answer_withWrite
      (withEngine_sameBut { s.engine with pending := some (acknowledge l p) } (arrive l s)) (by simp) tag
      .ackEpoch .ok _
    refine ⟨hframe, ⟨acknowledge l p, rfl, ?_, ?_⟩, hanswer⟩
    · rw [acknowledge_of_member hmember]
    · simp [acknowledge_of_member hmember]

/-! ## SET-ACK-WINDOW (R77) -/

theorem setAckWindowEffect_badParam {n : Byte} (hn : n.toNat = 0 ∨ 15 < n.toNat) (l : Link) (tag : Byte) (s : State) :
    setAckWindowEffect l tag n s = answer l tag .setAckWindow .badParam .none s := if_neg (by omega)

theorem setAckWindowEffect_sets {n : Byte} (hfrom : 1 ≤ n.toNat) (hto : n.toNat ≤ 15) (l : Link) (tag : Byte)
    (s : State) :
    setAckWindowEffect l tag n (arrive l s) = answer l tag .setAckWindow .ok (.ackWindow n.toNat s.engine.ackFrames)
      { arrive l s with engine := { s.engine with ackFrames := n.toNat } } := by
  simp [setAckWindowEffect, hfrom, hto]

/-! ## SET-RATE (R107) -/

theorem rateOfByte_eq_some {b : Byte} {r : Rate}
    (h : (b = 60 ∧ r = .hz60) ∨ (b = 90 ∧ r = .hz90) ∨ (b = 120 ∧ r = .hz120)) : rateOfByte b = some r := by
  obtain ⟨rfl, rfl⟩ | ⟨rfl, rfl⟩ | ⟨rfl, rfl⟩ := h <;> rfl

theorem rateOfByte_eq_none {b : Byte} (h60 : b.toNat ≠ 60) (h90 : b.toNat ≠ 90) (h120 : b.toNat ≠ 120) :
    rateOfByte b = none := by
  simp [rateOfByte, BitVec.toNat_eq, h60, h90, h120]

theorem setRateEffect_sets {rate : Byte} {r : Rate} (h : rateOfByte rate = some r) (l : Link) (tag : Byte) (s : State) :
    setRateEffect l tag rate (arrive l s) = answer l tag .setRate .ok (.rates s.scan.rate r)
      { arrive l s with scan := { s.scan with nextRate := r } } := by
  simp [setRateEffect, h, modScan]

/-! ## SET-QUIET (R148) -/

theorem setQuietEffect_badParam {n : Byte} (hn : n.toNat = 0) (l : Link) (tag : Byte) (s : State) :
    setQuietEffect l tag n s = answer l tag .setQuiet .badParam .none s := if_neg (by omega)

theorem setQuietEffect_sets {n : Byte} (hn : 1 ≤ n.toNat) (l : Link) (tag : Byte) (s : State) :
    setQuietEffect l tag n s = answer l tag .setQuiet .ok (.quietFrames n.toNat (s.port l).quietFrames)
      (s.modPort l (fun p => { p with quietFrames := n.toNat })) := if_pos hn

theorem setQuietEffect_sameBut (l : Link) (tag n : Byte) (s : State) :
    SameBut [.port l] s (setQuietEffect l tag n s) := by
  unfold setQuietEffect
  split
  · exact (modPort_sameBut l _ s).trans (answer_sameBut l tag _ _ _ _)
  · exact answer_sameBut l tag _ _ _ s

/-! ## SET-TOUCH-CAL (R130) -/

section
variable {gx gy ox oy : Half}

open Classical in
/-- The checks of a calibration are those of its fields in the order of their numbers; no 16 bits exceed a gain's upper
bound. -/
theorem calibrationFault_calibrationOf : calibrationFault (calibrationOf gx gy ox oy) =
    if ¬ calibrationPasses gx gy ox oy 1 then some 1 else if ¬ calibrationPasses gx gy ox oy 2 then some 2
    else if ¬ calibrationPasses gx gy ox oy 3 then some 3 else if ¬ calibrationPasses gx gy ox oy 4 then some 4
    else none := by
  have hgx : (1 ≤ gx.toNat ∧ gx.toNat ≤ 65535) ↔ calibrationPasses gx gy ox oy 1 :=
    and_iff_left (Nat.le_of_lt_succ gx.isLt)
  have hgy : (1 ≤ gy.toNat ∧ gy.toNat ≤ 65535) ↔ calibrationPasses gx gy ox oy 2 :=
    and_iff_left (Nat.le_of_lt_succ gy.isLt)
  have hox : (-4096 ≤ ox.toInt ∧ ox.toInt ≤ 4095) ↔ calibrationPasses gx gy ox oy 3 := Iff.rfl
  have hoy : (-4096 ≤ oy.toInt ∧ oy.toInt ≤ 4095) ↔ calibrationPasses gx gy ox oy 4 := Iff.rfl
  simp only [calibrationFault, calibrationOf, hgx, hgy, hox, hoy]

theorem calibrationFault_of_allPass (h : AllPass (calibrationPasses gx gy ox oy) 4) :
    calibrationFault (calibrationOf gx gy ox oy) = none := by
  have hpass : ∀ m, 1 ≤ m → m ≤ 4 → calibrationPasses gx gy ox oy m := h
  simp [calibrationFault_calibrationOf, hpass]

theorem calibrationFault_of_firstFailing {n : Nat} (h : FirstFailing (calibrationPasses gx gy ox oy) 4 n) :
    calibrationFault (calibrationOf gx gy ox oy) = some n := by
  obtain ⟨hfrom, hto, hfails, hbelow⟩ := h
  interval_cases n <;> simp [calibrationFault_calibrationOf, hfails, hbelow]

theorem setTouchCalEffect_sets (h : AllPass (calibrationPasses gx gy ox oy) 4) (l : Link) (tag : Byte) (s : State) :
    setTouchCalEffect l tag gx gy ox oy (arrive l s) =
      answer l tag .setTouchCal .ok (.calibration (calibrationOf gx gy ox oy) s.touch.calibration)
        { arrive l s with touch := { s.touch with calibration := calibrationOf gx gy ox oy } } := by
  simp [setTouchCalEffect, calibrationFault_of_allPass h]

end

/-! ## WAIT (R153) -/

section
variable {event n : Byte}

theorem waitOf_badParam (h : 2 < event.toNat ∨ (event.toNat = 0 ∧ n.toNat = 0)) (tag : Byte) :
    waitOf tag event n = none := by
  obtain hevent | ⟨h0, hn⟩ := h
  · have h0 : event.toNat ≠ 0 := by omega
    have h1 : event.toNat ≠ 1 := by omega
    have h2 : event.toNat ≠ 2 := by omega
    simp [waitOf, BitVec.toNat_eq, h0, h1, h2]
  · simp [waitOf, BitVec.toNat_eq, h0, hn]

theorem waitOf_frame (h : event.toNat = 0) (hn : 1 ≤ n.toNat) (tag : Byte) :
    waitOf tag event n = some (.waitFrame tag n.toNat) := by
  simp [waitOf, BitVec.toNat_eq, h, hn]

theorem waitOf_posture (h : event.toNat = 1) (tag : Byte) : waitOf tag event n = some (.waitPosture tag) := by
  simp [waitOf, BitVec.toNat_eq, h]

theorem waitOf_epoch (h : event.toNat = 2) (tag : Byte) : waitOf tag event n = some (.waitEpoch tag) := by
  simp [waitOf, BitVec.toNat_eq, h]

theorem waitEffect_refuses {tag : Byte} (h : waitOf tag event n = none) (l : Link) (s : State) :
    waitEffect l tag event n s = answer l tag .wait .badParam .none s := by
  simp [waitEffect, h]

theorem waitEffect_port {tag : Byte} {r : Running} (h : waitOf tag event n = some r) (l : Link) (s : State) :
    (waitEffect l tag event n s).port l = { s.port l with slot := some r } := by
  simp [waitEffect, h]

end

theorem waitEffect_sameBut (l : Link) (tag event n : Byte) (s : State) :
    SameBut [.port l] s (waitEffect l tag event n s) := by
  unfold waitEffect
  split
  · exact answer_sameBut l tag _ _ _ s
  · exact modPort_sameBut l _ s

/-- Settles O24: for each command, its range check decides between the refusal and the write or wait. -/
theorem settingAndWaitCommandsCheckRange : Obligations.SettingAndWaitCommandsCheckRange := by
  refine ⟨fun l tag n s h => ⟨_, slotCommand_runs h tag .setAckWindow _, fun hbad => ?_, fun hfrom hto => ?_⟩,
    fun l tag rate s h => ⟨_, slotCommand_runs h tag .setRate _, fun h60 h90 h120 => ?_, fun r hr => ?_⟩,
    fun l tag n s h => ⟨_, slotCommand_runs h tag .setQuiet _,
      (arrive_sameBut l s).trans (setQuietEffect_sameBut l tag n _), fun hbad => ?_, fun hn => ?_⟩,
    fun l tag gx gy ox oy s h => ⟨_, slotCommand_runs h tag .setTouchCal _, fun n hfail => ?_, fun hpass => ?_⟩,
    fun l tag event n s h => ⟨_, slotCommand_runs h tag .wait _,
      (arrive_sameBut l s).trans (waitEffect_sameBut l tag event n _), fun hbad => ?_,
      fun hevent hn => waitEffect_port (waitOf_frame hevent hn tag) l _,
      fun hevent => waitEffect_port (waitOf_posture hevent tag) l _,
      fun hevent => waitEffect_port (waitOf_epoch hevent tag) l _⟩⟩
  · rw [setAckWindowEffect_badParam hbad]
    exact refusedWith_answer l tag .setAckWindow .badParam .none s
  · rw [setAckWindowEffect_sets hfrom hto]
    obtain ⟨hframe, hanswer⟩ := answer_withWrite
      (withEngine_sameBut { s.engine with ackFrames := n.toNat } (arrive l s)) (by simp) tag .setAckWindow .ok _
    exact ⟨hframe, rfl, hanswer⟩
  · simpa [setRateEffect, rateOfByte_eq_none h60 h90 h120] using refusedWith_answer l tag .setRate .badParam .none s
  · rw [setRateEffect_sets (rateOfByte_eq_some hr)]
    obtain ⟨hframe, hanswer⟩ := answer_withWrite
      (withScan_sameBut { s.scan with nextRate := r } (arrive l s)) (by simp) tag .setRate .ok _
    exact ⟨hframe, rfl, hanswer⟩
  · rw [setQuietEffect_badParam hbad]
    exact refusedWith_answer l tag .setQuiet .badParam .none s
  · rw [setQuietEffect_sets hn]
    simp [commandCode]
  · simpa [setTouchCalEffect, calibrationFault_of_firstFailing hfail] using
      refusedWith_answer l tag .setTouchCal .badParam (.field n) s
  · rw [setTouchCalEffect_sets hpass]
    obtain ⟨hframe, hanswer⟩ := answer_withWrite
      (withTouch_sameBut { s.touch with calibration := calibrationOf gx gy ox oy } (arrive l s)) (by simp) tag
      .setTouchCal .ok _
    exact ⟨hframe, rfl, hanswer⟩
  · rw [waitEffect_refuses (waitOf_badParam hbad tag)]
    exact refusedWith_answer l tag .wait .badParam .none s

end Sys2Proof.Machine
end

section
/-! PROOFS. The statements about the panel scan (chapter 5): the examination of the head of a stream queue. -/

namespace Sys2Proof.Machine

/-! ## The distance of a frame tag (R112) -/

theorem frameDistance_eq (frameTag : Byte) (frame : Word) :
    frameDistance frameTag frame = (frameTag.toNat + 256 - frame.toNat % 256) % 256 := by
  have hcur : frame.toNat % 256 < 256 := Nat.mod_lt _ (by decide)
  simp only [frameDistance, BitVec.toNat_sub, BitVec.toNat_setWidth]
  omega

/-! ## Where a line's position stands against the current one (R113, step 5) -/

section
variable {row col atRow atCol : Nat}

theorem comparePosition_passed (h : row < atRow ∨ (row = atRow ∧ col < atCol)) :
    comparePosition row col atRow atCol = .discard := if_pos h

theorem comparePosition_reached (hrow : row = atRow) (hcol : col = atCol) :
    comparePosition row col atRow atCol = .consume := by
  simp [comparePosition, hrow, hcol]

theorem comparePosition_ahead (h : atRow < row ∨ (row = atRow ∧ atCol < col)) :
    comparePosition row col atRow atCol = .wait := by
  have hpassed : ¬ (row < atRow ∨ (row = atRow ∧ col < atCol)) := by omega
  have hreached : ¬ (row = atRow ∧ col = atCol) := by omega
  simp [comparePosition, hpassed, hreached]

end

/-! ## One examination, step by step (R113) -/

theorem fitsStreamed_iff (l : Link) (g : Region) (p : Line) :
    fitsStreamed l g p = true ↔ g.content = .streamed ∧ g.owner = some l ∧ p.row.toNat < g.height
      ∧ p.offset.toNat + p.pixels.length ≤ g.width := decide_eq_true_iff

theorem pendingEpoch_eq_some_iff (e : Engine) (epoch : Word) :
    pendingEpoch e = some epoch ↔ ∃ q, e.pending = some q ∧ q.epoch = epoch := Option.map_eq_some_iff

section
variable {e : Engine} {frame : Word} {l : Link} {row col : Nat} {p : Line} {r : RuntimeRecord}

theorem judge_unresolved (h : resolve e p.epoch p.tag = none) : judge e frame l row col p = .discard := by
  simp [judge, h]

variable (hr : resolve e p.epoch p.tag = some r)
include hr

theorem judge_unfit (hfit : fitsStreamed l r.region p = false) : judge e frame l row col p = .discard := by
  simp [judge, hr, hfit]

variable (hfit : fitsStreamed l r.region p = true)
include hfit

theorem judge_ofPendingEpoch (hp : pendingEpoch e = some p.epoch) : judge e frame l row col p = .wait := by
  simp [judge, hr, hfit, hp]

variable (hp : pendingEpoch e ≠ some p.epoch)
include hp

theorem judge_ofEarlierFrame (hd : 128 ≤ frameDistance p.frameTag frame) :
    judge e frame l row col p = .discard := by
  simp [judge, hr, hfit, hp, hd]

theorem judge_ofLaterFrame (hone : 1 ≤ frameDistance p.frameTag frame)
    (hd : frameDistance p.frameTag frame ≤ 127) : judge e frame l row col p = .wait := by
  have hlow : ¬ 128 ≤ frameDistance p.frameTag frame := by omega
  simp [judge, hr, hfit, hp, hlow, hone]

theorem judge_ofThisFrame (hd : frameDistance p.frameTag frame = 0) :
    judge e frame l row col p = comparePosition (r.region.row0 + p.row.toNat) r.region.col0 row col := by
  simp [judge, hr, hfit, hp, hd]

end

/-! ## The run of examinations at one position (R113) -/

section
variable {e : Engine} {frame : Word} {l : Link} {row col : Nat} {p : Line}

theorem examine_cons_wait (h : judge e frame l row col p = .wait) (ps : List Line) :
    examine e frame l row col (p :: ps) = { queue := p :: ps, consumed := none, discarded := 0 } := by
  simp [examine, h]

theorem examine_cons_consume (h : judge e frame l row col p = .consume) (ps : List Line) :
    examine e frame l row col (p :: ps) = { queue := ps, consumed := some p, discarded := 0 } := by
  simp [examine, h]

theorem examine_cons_discard (h : judge e frame l row col p = .discard) (ps : List Line) :
    examine e frame l row col (p :: ps) =
      { examine e frame l row col ps with discarded := (examine e frame l row col ps).discarded + 1 } := by
  simp [examine, h]

end

/-- The lines discarded stand at the front of the queue, and the line behind them, if there is one, decides the rest. -/
theorem examine_splits_queue (e : Engine) (frame : Word) (l : Link) (row col : Nat) (q : List Line) :
    ∃ gone rest, q = gone ++ rest ∧ gone.length = (examine e frame l row col q).discarded
      ∧ (∀ p ∈ gone, judge e frame l row col p = .discard)
      ∧ ((rest = [] ∧ (examine e frame l row col q).queue = [] ∧ (examine e frame l row col q).consumed = none)
        ∨ (∃ p ps, rest = p :: ps ∧ judge e frame l row col p = .wait
            ∧ (examine e frame l row col q).queue = p :: ps ∧ (examine e frame l row col q).consumed = none)
        ∨ ∃ p ps, rest = p :: ps ∧ judge e frame l row col p = .consume
            ∧ (examine e frame l row col q).queue = ps ∧ (examine e frame l row col q).consumed = some p) := by
  induction q with
  | nil => exact ⟨[], [], rfl, rfl, by simp, .inl ⟨rfl, rfl, rfl⟩⟩
  | cons p ps ih =>
    cases hj : judge e frame l row col p with
    | wait =>
      rw [examine_cons_wait hj]
      exact ⟨[], p :: ps, rfl, rfl, by simp, .inr (.inl ⟨p, ps, rfl, hj, rfl, rfl⟩)⟩
    | consume =>
      rw [examine_cons_consume hj]
      exact ⟨[], p :: ps, rfl, rfl, by simp, .inr (.inr ⟨p, ps, rfl, hj, rfl, rfl⟩)⟩
    | discard =>
      obtain ⟨gone, rest, hsplit, hcount, hgone, hrest⟩ := ih
      rw [examine_cons_discard hj]
      exact ⟨p :: gone, rest, congrArg (p :: ·) hsplit, congrArg (· + 1) hcount,
        List.forall_mem_cons.mpr ⟨hj, hgone⟩, hrest⟩

/-- Settles O43: one lemma per deciding step of the examination, and the induction over the queue. -/
theorem headLineIsJudgedInFiveSteps : Obligations.HeadLineIsJudgedInFiveSteps := by
  refine ⟨fun e frame l row col p => ⟨judge_unresolved, fun r hr => ?_⟩, examine_splits_queue⟩
  rw [← frameDistance_eq, ← fitsStreamed_iff, ← pendingEpoch_eq_some_iff]
  refine ⟨fun hunfit => judge_unfit hr (Bool.eq_false_iff.mpr hunfit), judge_ofPendingEpoch hr,
    fun hfit hother => ?_⟩
  have hp : pendingEpoch e ≠ some p.epoch := fun h =>
    have ⟨q, hq, hepoch⟩ := (pendingEpoch_eq_some_iff e p.epoch).mp h
    hother q hq hepoch
  exact ⟨judge_ofEarlierFrame hr hfit hp, judge_ofLaterFrame hr hfit hp,
    fun hd hpos => (judge_ofThisFrame hr hfit hp hd).trans (comparePosition_passed hpos),
    fun hd hrow hcol => (judge_ofThisFrame hr hfit hp hd).trans (comparePosition_reached hrow hcol),
    fun hd hpos => (judge_ofThisFrame hr hfit hp hd).trans (comparePosition_ahead (by omega))⟩

end Sys2Proof.Machine
end

section
/-! PROOFS. The statement about the placing of notices (chapter 8): the two searches of a notice queue, the placing of
each kind of notice, and ATTN. -/

namespace Sys2Proof.Machine

@[simp] theorem Port.count_notices (k : CounterName) (n : Nat) (p : Port) : (Port.count k n p).notices = p.notices :=
  rfl

/-! ## The oldest MOVE of a queue (R160) -/

theorem dropOldestMove_of_noMove {q : List Notice} (h : ∀ m ∈ q, m.isMove = false) : dropOldestMove q = none := by
  induction q with
  | nil => rfl
  | cons m q ih =>
    obtain ⟨hm, hq⟩ := List.forall_mem_cons.mp h
    simp [dropOldestMove, hm, ih hq]

theorem dropOldestMove_append_move {before : List Notice} {m : Notice} (hbefore : ∀ x ∈ before, x.isMove = false)
    (hm : m.isMove = true) (after : List Notice) :
    dropOldestMove (before ++ m :: after) = some (before ++ after) := by
  induction before with
  | nil => simp [dropOldestMove, hm]
  | cons x before ih =>
    obtain ⟨hx, hrest⟩ := List.forall_mem_cons.mp hbefore
    simp [dropOldestMove, hx, ih hrest]

/-! ## The most recent notice that concerns a touch id (R161, step 1) -/

section
variable {c : TouchId} {n m : Notice} {before after q q' : List Notice}

theorem coalesce_append_move (hm : m.isMove = true) (hc : m.concerns c = true)
    (hafter : ∀ x ∈ after, x.concerns c = false) :
    coalesce c n (before ++ m :: after) = some (before ++ n :: after) := by
  induction before with
  | nil => simp [coalesce, hm, hc, List.any_eq_false.mpr (by simpa using hafter)]
  | cons x before ih =>
    have hany : (before ++ m :: after).any (Notice.concerns c) = true := List.any_eq_true.mpr ⟨m, by simp, hc⟩
    simp [coalesce, hany, ih]

/-- Only a MOVE that is the most recent notice concerning its id is ever replaced. -/
theorem exists_move_of_coalesce_eq_some (h : coalesce c n q = some q') :
    ∃ before m after, q = before ++ m :: after ∧ m.isMove = true ∧ m.concerns c = true
      ∧ (∀ x ∈ after, x.concerns c = false) ∧ q' = before ++ n :: after := by
  induction q generalizing q' with
  | nil => simp [coalesce] at h
  | cons x q ih =>
    unfold coalesce at h
    split at h
    next =>
      obtain ⟨r, hr, rfl⟩ := Option.map_eq_some_iff.mp h
      obtain ⟨before, m, after, rfl, hm, hc, hafter, rfl⟩ := ih hr
      exact ⟨x :: before, m, after, rfl, hm, hc, hafter, rfl⟩
    next hany =>
      obtain ⟨hx, hq'⟩ := Option.ite_none_right_eq_some.mp h
      obtain rfl := Option.some.inj hq'
      obtain ⟨hm, hc⟩ := Bool.and_eq_true_iff.mp hx
      exact ⟨[], x, q, rfl, hm, hc, by simpa using hany, rfl⟩

theorem coalesce_of_noRecentMove (h : ∀ before m after, q = before ++ m :: after →
    (∀ x ∈ after, x.concerns c = false) → m.concerns c = true → m.isMove = false) : coalesce c n q = none := by
  refine Option.eq_none_iff_forall_ne_some.mpr fun q' hq' => ?_
  obtain ⟨before, m, after, hq, hm, hc, hafter, -⟩ := exists_move_of_coalesce_eq_some hq'
  exact absurd hm (Bool.eq_false_iff.mp (h before m after hq hafter hc))

end

/-! ## Placing a must-keep notice (R160) -/

section
variable {n : Notice} {p : Port}

theorem placeNotice_of_mustKeep (h : n.isMove = false) (p : Port) : placeNotice n p = placeKeep n p := by
  unfold placeNotice
  split
  · cases h
  · rfl

theorem placeKeep_of_room (h : p.notices.length < 32) :
    placeKeep n p = { p with notices := p.notices ++ [n] } := if_pos h

theorem placeKeep_of_drop (h : 32 ≤ p.notices.length) {q : List Notice} (hq : dropOldestMove p.notices = some q) :
    placeKeep n p = Port.count .touchDropped 1 { p with notices := q ++ [n] } := by
  have hfull : ¬ p.notices.length < Config.noticeDepth := Nat.not_lt.mpr h
  simp [placeKeep, hfull, hq]

theorem placeKeep_of_noDrop (h : 32 ≤ p.notices.length) (hq : dropOldestMove p.notices = none) :
    placeKeep n p = Port.count .noticeLost 1 p := by
  have hfull : ¬ p.notices.length < Config.noticeDepth := Nat.not_lt.mpr h
  simp [placeKeep, hfull, hq]

theorem placeKeep_of_noMove (h : 32 ≤ p.notices.length) (hq : ∀ m ∈ p.notices, m.isMove = false) :
    placeKeep n p = Port.count .noticeLost 1 p := placeKeep_of_noDrop h (dropOldestMove_of_noMove hq)

theorem placeKeep_of_oldestMove {before after : List Notice} {m : Notice} (h : 32 ≤ p.notices.length)
    (hq : p.notices = before ++ m :: after) (hm : m.isMove = true) (hbefore : ∀ x ∈ before, x.isMove = false) :
    placeKeep n p = Port.count .touchDropped 1 { p with notices := before ++ after ++ [n] } :=
  placeKeep_of_drop h (hq ▸ dropOldestMove_append_move hbefore hm after)

theorem placeKeep_notices_ne_nil (n : Notice) (p : Port) : (placeKeep n p).notices ≠ [] := by
  obtain hroom | hfull := Nat.lt_or_ge p.notices.length 32
  · simp [placeKeep_of_room hroom]
  · cases hq : dropOldestMove p.notices with
    | some q => simp [placeKeep_of_drop hfull hq]
    | none =>
      rw [placeKeep_of_noDrop hfull hq]
      exact List.ne_nil_of_length_pos (show 0 < p.notices.length by omega)

end

/-! ## Placing a MOVE (R161) -/

section
variable {c : TouchId} {n : Notice} {p : Port}

theorem placeMove_of_coalesce {q : List Notice} (h : coalesce c n p.notices = some q) :
    placeMove c n p = { p with notices := q } := by
  simp [placeMove, h]

variable (h : coalesce c n p.notices = none)
include h

theorem placeMove_of_noCoalesce : placeMove c n p =
    if 24 ≤ p.notices.countP Notice.isMove ∨ 32 ≤ p.notices.length then Port.count .touchDropped 1 p
    else { p with notices := p.notices ++ [n] } := by
  unfold placeMove
  rw [h]
  rfl

theorem placeMove_of_noRoom (hq : 24 ≤ p.notices.countP Notice.isMove ∨ 32 ≤ p.notices.length) :
    placeMove c n p = Port.count .touchDropped 1 p := (placeMove_of_noCoalesce h).trans (if_pos hq)

theorem placeMove_of_room (hmoves : p.notices.countP Notice.isMove < 24) (hlen : p.notices.length < 32) :
    placeMove c n p = { p with notices := p.notices ++ [n] } :=
  (placeMove_of_noCoalesce h).trans (if_neg (by omega))

end

theorem placeMove_notices_ne_nil (c : TouchId) (n : Notice) (p : Port) : (placeMove c n p).notices ≠ [] := by
  cases h : coalesce c n p.notices with
  | some q =>
    obtain ⟨before, m, after, -, -, -, -, rfl⟩ := exists_move_of_coalesce_eq_some h
    simp [placeMove_of_coalesce h]
  | none =>
    by_cases hroom : p.notices.countP Notice.isMove < 24 ∧ p.notices.length < 32
    · simp [placeMove_of_room h hroom.1 hroom.2]
    · have hfew := List.countP_le_length (p := Notice.isMove) (l := p.notices)
      rw [placeMove_of_noRoom h (by omega)]
      exact List.ne_nil_of_length_pos (show 0 < p.notices.length by omega)

/-! ## Handing a notice to a link, and ATTN (R159, R162) -/

theorem attn_eq_true_iff (p : Port) : attn p = true ↔ p.notices ≠ [] := by simp [attn]

theorem placeNotice_notices_ne_nil (n : Notice) (p : Port) : (placeNotice n p).notices ≠ [] := by
  unfold placeNotice
  split
  · exact placeMove_notices_ne_nil _ _ p
  · exact placeKeep_notices_ne_nil _ p

theorem handed_of_offline {p : Port} (h : p.state = .offline) (n : Notice) : handed n p = p := if_pos h

theorem handed_of_not_offline {p : Port} (h : p.state ≠ .offline) (n : Notice) : handed n p = placeNotice n p :=
  if_neg h

theorem attn_handed {p : Port} (h : p.state ≠ .offline) (n : Notice) : attn (handed n p) = true := by
  rw [handed_of_not_offline h, attn_eq_true_iff]
  exact placeNotice_notices_ne_nil n p

/-- Settles O52: a queue is searched for its oldest MOVE, or for the most recent notice concerning an id, and what the
search finds decides the placing. -/
theorem noticesArePlacedByKind : Obligations.NoticesArePlacedByKind := by
  intro n p
  refine ⟨fun h => handed_of_offline h n, attn_eq_true_iff p, fun h => attn_handed h n, fun h hkeep => ?_,
    fun c tag u v epoch h hmove => ?_⟩
  · rw [handed_of_not_offline h, placeNotice_of_mustKeep hkeep]
    exact ⟨placeKeep_of_room, placeKeep_of_noMove, fun _ _ _ => placeKeep_of_oldestMove⟩
  · have hplace : handed n p = placeMove c n p := by rw [handed_of_not_offline h, hmove]; rfl
    rw [hplace]
    refine ⟨fun before m after hq hm hc hafter => placeMove_of_coalesce (hq ▸ coalesce_append_move hm hc hafter),
      fun hnone => ?_⟩
    have hcoalesce := coalesce_of_noRecentMove (n := n) hnone
    exact ⟨placeMove_of_noRoom hcoalesce, placeMove_of_room hcoalesce⟩

end Sys2Proof.Machine
end

section
/-! PROOFS. What every command runs, in the order in which the part handles it, and the induction over packets that
every invariant uses: a property that the parts of a command keep is kept by every packet, by bytes that bring several,
and by a step. -/

namespace Sys2Proof.Machine

/-! ## The effect of each command -/

/-- What a command that uses the command slot does once the slot has let it through. -/
def slotEffect : Instr → State → State
  | .stageOpen l tag slot backdrop => stageOpenEffect l tag slot backdrop
  | .stageRegion l tag record => stageRegionEffect l tag record
  | .stageCommit l tag => stageCommitEffect l tag
  | .stageDrop l tag => stageDropEffect l tag
  | .slotRead l tag slot index => slotReadEffect l tag slot index
  | .slotsOpen l tag low high outside => slotsOpenEffect l tag low high outside
  | .slotsClose l tag => slotsCloseEffect l tag
  | .slotsFreeze l tag => slotsFreezeEffect l tag
  | .setHinge l tag fields => setHingeEffect l tag fields
  | .setFace l tag face => setFaceEffect l tag face
  | .bind l tag posture face slot => bindEffect l tag posture face slot
  | .postureRead l tag => fun s => answer l tag .postureRead .ok (.postureRead (postureReadInfo s)) s
  | .hingeSnapshot l tag => hingeSnapshotEffect l tag
  | .switch l tag slot => switchEffect l tag slot
  | .setAckWindow l tag n => setAckWindowEffect l tag n
  | .regionClear l tag region which => regionClearEffect l tag region which
  | .regionStatus l tag region => regionStatusEffect l tag region
  | .setRate l tag rate => setRateEffect l tag rate
  | .resume l tag cutoff => resumeEffect l tag cutoff
  | .setTouchCal l tag gx gy ox oy => setTouchCalEffect l tag gx gy ox oy
  | .setQuiet l tag n => setQuietEffect l tag n
  | .wait l tag event n => waitEffect l tag event n
  | _ => id

/-- The link of a command that is taken whatever the slot holds, PORT-RESET apart (R151). -/
def immediateLink : Instr → Option Link
  | .unknownCommand l _ _ => some l
  | .ackEpoch l _ _ => some l
  | .abort l _ _ _ => some l
  | .status l _ => some l
  | .fetch l _ => some l
  | _ => none

/-- What such a command does once it is taken. -/
def immediateEffect : Instr → State → State
  | .unknownCommand l tag code => respond l tag code .unknownCommand .none
  | .ackEpoch l tag epoch => ackEpochEffect l tag epoch
  | .abort l tag condition quiet => abortEffect l tag condition quiet
  | .status l tag => statusEffect l tag
  | .fetch l tag => fetchEffect l tag
  | _ => id

/-- The link of a LINE or MARK packet. -/
def pixelLink : Instr → Option Link
  | .line l _ => some l
  | .beginMark l _ _ => some l
  | .endMark l _ _ => some l
  | _ => none

/-- What a LINE or MARK packet does behind its arrival. -/
def pixelEffect : Instr → State → State
  | .line l p => lineEffect l p
  | .beginMark l region epoch => markEffect l region epoch beginFrame
  | .endMark l region epoch => markEffect l region epoch (endChecked l)
  | _ => id

/-- What an event that is no packet does to a part that is not held. -/
def eventEffect : Instr → State → State
  | .cutoffAssert => cutoffEffect
  | .hingeFall ticks => modPosture (fallingEdge ticks)
  | .hingeRise ticks order => risingEdge ticks order
  | .sensorTimeout => timeoutEffect
  | .frameStart order => frameStart order
  | .ackWindowExpiry => fun s => if windowEnding s then frameStart completionsFirst s else s
  | .quietDetect l => fun s => if quietComing (s.port l) then frameStart completionsFirst s else s
  | .waitFrameDone l => fun s => if waitEnding (s.port l) then frameStart completionsFirst s else s
  | .rowScan => fun s => match s.scan.row with
    | none => s
    | some row => scanRow row s
  | .badPacket l bytes => receive l bytes.length bytes
  | .touchReadStart => setReading true
  | .touchReadTimeout ready => fun s => if s.touch.reading then setReading ready (countMalformedReport s) else s
  | .touchReport count entries ready => fun s =>
    if s.touch.reading then setReading ready (takeReport count entries s) else s
  | .responseSent l => sendResponse l
  | _ => id

/-- A PORT-RESET that finds no room is counted OVERRUN behind its arrival. -/
def portResetBody (l : Link) (tag : Byte) (s : State) : State :=
  if noRoom l s then countOn l .overrun 1 (arrive l s) else portResetEffect l tag s

/-! ## What `exec` answers, by the kind of command -/

theorem takePacket_inReset {s : State} (h : s.phase ≠ .running) (l : Link) (e : State → State) :
    takePacket l e s = s := unlessHeld_inReset h _

theorem takeCommand_inReset {s : State} (h : s.phase ≠ .running) (l : Link) (e : State → State) :
    takeCommand l e s = s := takePacket_inReset h l _

theorem slotCommand_inReset {s : State} (h : s.phase ≠ .running) (l : Link) (tag : Byte) (c : Command)
    (e : State → State) : slotCommand l tag c e s = s := takeCommand_inReset h l _

theorem exec_slotUser {i : Instr} {l : Link} {tag : Byte} {c : Command} (h : slotUser i = some (l, tag, c))
    (s : State) : exec i s = .next (unlessHeld (fun s =>
      slotCommand l tag c (slotEffect i) { s with cutoffInput := levelAfter i s.cutoffInput }) s) := by
  by_cases hrun : s.phase = .running
  · rw [unlessHeld_running hrun]
    cases i <;> cases h
    case resume.refl => exact congrArg Host.Outcome.next (unlessHeld_running hrun _)
    all_goals rfl
  · rw [unlessHeld_inReset hrun]
    cases i <;> cases h
    case resume.refl => exact congrArg Host.Outcome.next (unlessHeld_inReset hrun _)
    all_goals exact congrArg Host.Outcome.next (slotCommand_inReset hrun _ _ _ _)

theorem exec_immediate {i : Instr} {l : Link} (h : immediateLink i = some l) (s : State) :
    exec i s = .next (takeCommand l (immediateEffect i) s) := by
  cases i <;> cases h <;> rfl

theorem exec_pixel {i : Instr} {l : Link} (h : pixelLink i = some l) (s : State) :
    exec i s = .next (takePacket l (pixelEffect i) s) := by
  cases i <;> cases h <;> rfl

theorem exec_portReset (l : Link) (tag : Byte) (s : State) :
    exec (.portReset l tag) s = .next (unlessHeld (portResetBody l tag) s) := rfl

theorem exec_event {i : Instr} (hp : packetLink i = none) (hr : takenInReset i = false) (s : State) :
    exec i s = .next (unlessHeld (eventEffect i) s) := by
  cases i <;> first | rfl | exact Bool.noConfusion hr | exact absurd hp (Option.some_ne_none _)

/-- A packet is a command that uses the slot, one taken whatever it holds, a PORT-RESET, or a LINE or MARK. -/
theorem packetLink_cases {i : Instr} {l : Link} (h : packetLink i = some l) :
    (∃ tag c, slotUser i = some (l, tag, c)) ∨ immediateLink i = some l ∨ (∃ tag, i = .portReset l tag)
      ∨ pixelLink i = some l := by
  cases i <;> cases h <;> simp [slotUser, immediateLink, pixelLink]

/-- Every command answers a next state. -/
theorem exec_next (i : Instr) (s : State) : ∃ t, exec i s = .next t := by
  cases i <;> exact ⟨_, rfl⟩

/-- A part that is held takes the resets, the end of a reset and a PROTECT pulse, and nothing else (log 5). -/
theorem exec_inReset {i : Instr} {s : State} (hs : s.phase ≠ .running) (hi : takenInReset i = false) :
    exec i s = .next s := by
  cases hp : packetLink i with
  | none => rw [exec_event hp hi, unlessHeld_inReset hs]
  | some l =>
    obtain ⟨tag, c, h⟩ | h | ⟨tag, rfl⟩ | h := packetLink_cases hp
    · rw [exec_slotUser h, unlessHeld_inReset hs]
    · rw [exec_immediate h, takeCommand_inReset hs]
    · rw [exec_portReset, unlessHeld_inReset hs]
    · rw [exec_pixel h, takePacket_inReset hs]

/-! ## A property that every packet keeps -/

/-- The parts of a packet's handling keep a property: its arrival, a count, a response where there is room for one, the
level of CUTOFF last known, and each effect where the rules let it through. -/
structure PacketsKeep (P : State → Prop) : Prop where
  arrives : ∀ l s, P s → P (arrive l s)
  counts : ∀ l k s, P s → P (countOn l k 1 s)
  responds : ∀ l tag code st r s, P s → (s.port l).responses.length < 8 → P (respond l tag code st r s)
  levels : ∀ level s, P s → P { s with cutoffInput := level }
  slotEffects : ∀ i l tag c s, slotUser i = some (l, tag, c) → SlotFree l s → (s.port l).quiet = 0 → P s →
    P (slotEffect i s)
  immediateEffects : ∀ i l s, immediateLink i = some l → TakesCommand l s → P s → P (immediateEffect i s)
  pixelEffects : ∀ i l s, pixelLink i = some l → P s → P (pixelEffect i s)
  portResets : ∀ l tag s, TakesCommand l s → P s → P (portResetEffect l tag s)

theorem takesCommand_of_room {l : Link} {s : State} (hs : TakesPackets s) (hroom : noRoom l s = false) :
    TakesCommand l s := 
  ⟨hs, Nat.lt_of_not_le (of_decide_eq_false hroom)⟩

theorem unlessHeld_keeps {P : State → Prop} {e : State → State} {s : State} (h : P s)
    (he : TakesPackets s → P (e s)) : P (unlessHeld e s) := by
  by_cases hs : TakesPackets s
  · rw [unlessHeld_running hs]
    exact he hs
  · rwa [unlessHeld_inReset hs]

namespace PacketsKeep
variable {P : State → Prop} (hP : PacketsKeep P)
include hP

theorem takePacket {l : Link} {e : State → State} {s : State} (h : P s)
    (he : ∀ u, TakesPackets u → (u.port l).quiet = 0 → P u → P (e u)) : P (takePacket l e s) := by
  by_cases hs : TakesPackets s
  · rw [takePacket_running hs]
    exact he _ ((arrive_phase s l).trans hs) (arrive_port_quiet s l) (hP.arrives l s h)
  · rwa [takePacket_inReset hs]

theorem takeCommand {l : Link} {e : State → State} {s : State} (h : P s)
    (he : ∀ u, TakesCommand l u → (u.port l).quiet = 0 → P u → P (e u)) : P (takeCommand l e s) := by
  refine hP.takePacket h fun u hu hq hPu => ?_
  split
  · exact hP.counts l _ u hPu
  · next hroom => exact he u (takesCommand_of_room hu (by simpa using hroom)) hq hPu

theorem slotCommand {l : Link} {tag : Byte} {c : Command} {e : State → State} {s : State} (h : P s)
    (he : ∀ u, SlotFree l u → (u.port l).quiet = 0 → P u → P (e u)) : P (slotCommand l tag c e s) := by
  refine hP.takeCommand h fun u hu hq hPu => ?_
  split
  · exact hP.responds l _ _ _ _ u hPu hu.2
  · next hfree => exact he u ⟨hu, hfree⟩ hq hPu

theorem portReset {l : Link} {tag : Byte} {s : State} (hs : TakesPackets s) (h : P s) : P (portResetBody l tag s) := by
  unfold portResetBody
  split
  · exact hP.counts l _ _ (hP.arrives l s h)
  · next hroom => exact hP.portResets l tag s (takesCommand_of_room hs (by simpa using hroom)) h

/-- Every packet keeps the property. -/
theorem packet {i : Instr} {l : Link} {s t : State} (hi : packetLink i = some l) (h : P s)
    (ht : exec i s = .next t) : P t := by
  obtain ⟨tag, c, hc⟩ | hc | ⟨tag, rfl⟩ | hc := packetLink_cases hi
  · obtain rfl := Host.Outcome.next.inj ((exec_slotUser hc s).symm.trans ht)
    exact unlessHeld_keeps h fun _ => hP.slotCommand (hP.levels _ s h) fun u => hP.slotEffects i l tag c u hc
  · obtain rfl := Host.Outcome.next.inj ((exec_immediate hc s).symm.trans ht)
    exact hP.takeCommand h fun u hu _ => hP.immediateEffects i l u hc hu
  · obtain rfl := Host.Outcome.next.inj ht
    exact unlessHeld_keeps h fun hs => hP.portReset hs h
  · obtain rfl := Host.Outcome.next.inj ((exec_pixel hc s).symm.trans ht)
    exact hP.takePacket h fun u _ _ => hP.pixelEffects i l u hc

end PacketsKeep

/-! ## Bytes that bring several packets (R145) -/

/-- A packet found among bytes is run as the command it is; anything else does nothing there. -/
theorem runPacket_eq (i : Instr) (s : State) :
    (∃ l, packetLink i = some l ∧ exec i s = .next (runPacket i s)) ∨ (packetLink i = none ∧ runPacket i s = s) := by
  cases i <;> first | exact .inl ⟨_, rfl, rfl⟩ | exact .inr ⟨rfl, rfl⟩

namespace PacketsKeep
variable {P : State → Prop} (hP : PacketsKeep P)
include hP

theorem receiveOne {l : Link} {v : Verdict} {s : State} (h : P s) : P (receiveOne l v s) := by
  cases v with
  | incomplete => exact h
  | longHeader | badCrc | malformed => exact hP.counts l _ s h
  | wrongLength => exact hP.takeCommand h fun u _ _ => hP.counts l _ u
  | valid i =>
    obtain ⟨m, hi, hrun⟩ | ⟨-, hrun⟩ := runPacket_eq i s
    · exact hP.packet hi h hrun
    · exact (congrArg P hrun).mpr h

theorem receive {l : Link} {fuel : Nat} {bytes : List Byte} {s : State} (h : P s) : P (receive l fuel bytes s) := by
  induction fuel generalizing bytes s with
  | zero => exact h
  | succ fuel ih =>
    unfold Machine.receive
    split
    · exact h
    · exact ih (hP.receiveOne h)

/-- Every command that is no reset keeps a property that packets and single events keep. -/
theorem exec {i : Instr} {s t : State} (hr : takenInReset i = false)
    (hev : packetLink i = none → isBytes i = false → TakesPackets s → P s → P (eventEffect i s))
    (h : P s) (ht : exec i s = .next t) : P t := by
  cases hp : packetLink i with
  | some l => exact hP.packet hp h ht
  | none =>
    obtain rfl := Host.Outcome.next.inj ((exec_event hp hr s).symm.trans ht)
    refine unlessHeld_keeps h fun hs => ?_
    cases hb : isBytes i with
    | false => exact hev hp hb hs h
    | true =>
      obtain ⟨l, bytes, rfl⟩ : ∃ l bytes, i = .badPacket l bytes := by
        cases i <;> first | exact ⟨_, _, rfl⟩ | exact absurd hb (by simp [isBytes])
      exact hP.receive h

end PacketsKeep

/-- What is left to an invariant besides its packets: the single events, the resets, and the queue's own step. -/
structure StepKeeps (P : State → Prop) : Prop where
  packets : PacketsKeep P
  events : ∀ i s, packetLink i = none → isBytes i = false → TakesPackets s → P s → P (eventEffect i s)
  powersOn : ∀ s, P s → P (powerOn s)
  resets : ∀ s, P s → P (resetInput s)
  endsReset : ∀ cutoff ready s, P s → P (endReset cutoff ready s)
  protects : ∀ s, P s → P (setFreeze false (setRange 0 7 true s))
  queues : ∀ q s, P s → P { s with pending := q }

theorem StepKeeps.exec {P : State → Prop} (hP : StepKeeps P) {i : Instr} {s t : State} (h : P s)
    (ht : exec i s = .next t) : P t := by
  cases hr : takenInReset i with
  | false => exact hP.packets.exec hr (hP.events i s) h ht
  | true =>
    cases i <;> cases hr <;> obtain rfl := Host.Outcome.next.inj ht
    case true.powerOnReset.refl => exact hP.powersOn s h
    case true.resetInput.refl => exact hP.resets s h
    case true.resetEnd.refl cutoff ready =>
      split
      · exact h
      · exact hP.endsReset cutoff ready s h
    case true.protectPulse.refl =>
      split
      · exact hP.protects s h
      · exact h

/-- A step keeps what every command keeps. -/
theorem StepKeeps.step {P : State → Prop} (hP : StepKeeps P) {s t : State} (h : P s) (ht : step s = .next t) : P t := by
  unfold Machine.step at ht
  split at ht
  · exact Host.Outcome.next.inj ht ▸ h
  · next rest _ => exact hP.exec (hP.queues rest s h) ht

end Sys2Proof.Machine
end

section
/-! PROOFS. The frame of every command: the parts it can change, in one table, and that it leaves every other part as it
was. -/

namespace Sys2Proof.Machine

/-- The parts that a command can change on a part that is not held, the arrival of a packet apart. -/
def changedBy : Instr → List Part
  | .stageOpen l _ _ _ | .stageRegion l _ _ | .stageCommit l _ | .stageDrop l _ | .slotsOpen l _ _ _ _
  | .slotsClose l _ | .slotsFreeze l _ => [.slots, .port l]
  | .slotRead l _ _ _ | .postureRead l _ | .regionStatus l _ _ | .setQuiet l _ _ | .wait l _ _ _
  | .unknownCommand l _ _ | .status l _ | .fetch l _ => [.port l]
  | .setHinge l _ _ | .hingeSnapshot l _ => [.posture, .port l]
  | .setFace _ _ _ | .bind _ _ _ _ _ | .hingeRise _ _ => [.posture, .engine, .port .a, .port .b]
  | .switch _ _ _ | .abort _ _ _ _ => [.engine, .port .a, .port .b]
  | .setAckWindow l _ _ | .ackEpoch l _ _ | .regionClear l _ _ _ | .beginMark l _ _ | .endMark l _ _ =>
    [.engine, .port l]
  | .line l _ => [.engine, .store, .port l]
  | .setRate l _ _ | .resume l _ _ => [.scan, .port l]
  | .setTouchCal l _ _ _ _ _ => [.touch, .port l]
  | .portReset l _ => [.slots, .engine, .touch, .port l]
  | .cutoffAssert => [.scan, .touch, .cutoffInput, .port .a, .port .b]
  | .hingeFall _ => [.posture]
  | .sensorTimeout => [.posture, .port .a, .port .b]
  | .frameStart _ | .ackWindowExpiry | .quietDetect _ | .waitFrameDone _ =>
    [.posture, .engine, .scan, .touch, .port .a, .port .b, .outputs]
  | .rowScan => [.engine, .scan, .port .a, .port .b, .outputs]
  | .touchReadStart | .touchReadTimeout _ => [.touch]
  | .touchReport _ _ _ => [.touch, .port .a, .port .b]
  | .responseSent l => [.port l, .outputs]
  | .powerOnReset | .resetInput | .resetEnd _ _ | .protectPulse | .badPacket _ _ =>
    [.slots, .posture, .engine, .store, .scan, .touch, .port .a, .port .b, .cutoffInput, .phase, .outputs]

/-! ## Writes of one part, and an answer behind them -/

section
variable {c : List Part} {l : Link} {s t : State}

theorem SameBut.answer (h : SameBut c s t) (hl : Part.port l ∈ c) (tag : Byte) (name : Command) (st : Status)
    (r : Results) : SameBut c s (answer l tag name st r t) :=
  h.trans ((answer_sameBut l tag name st r t).mono (by simpa using hl))

theorem SameBut.modPort (h : SameBut c s t) (hl : Part.port l ∈ c) (f : Port → Port) : SameBut c s (t.modPort l f) :=
  h.trans ((modPort_sameBut l f t).mono (by simpa using hl))

theorem SameBut.count (h : SameBut c s t) (hl : Part.port l ∈ c) (k : CounterName) : SameBut c s (countOn l k 1 t) :=
  h.modPort hl _

theorem SameBut.withSlots (h : SameBut c s t) (hc : Part.slots ∈ c) (x : SlotTable) :
    SameBut c s { t with slots := x } := h.trans ((withSlots_sameBut x t).mono (by simpa using hc))

theorem SameBut.withEngine (h : SameBut c s t) (hc : Part.engine ∈ c) (x : Engine) :
    SameBut c s { t with engine := x } := h.trans ((withEngine_sameBut x t).mono (by simpa using hc))

theorem SameBut.withTouch (h : SameBut c s t) (hc : Part.touch ∈ c) (x : Touch) :
    SameBut c s { t with touch := x } := h.trans ((withTouch_sameBut x t).mono (by simpa using hc))

theorem SameBut.withScan (h : SameBut c s t) (hc : Part.scan ∈ c) (x : Scan) : SameBut c s { t with scan := x } :=
  h.trans ((withScan_sameBut x t).mono (by simpa using hc))

theorem withPosture_sameBut (x : PostureMonitor) (s : State) : SameBut [.posture] s { s with posture := x } := by
  intro p hp
  cases p with
  | posture => exact absurd (List.mem_singleton_self _) hp
  | _ => rfl

theorem modPosture_sameBut (f : PostureMonitor → PostureMonitor) (s : State) : SameBut [.posture] s (modPosture f s) :=
  withPosture_sameBut _ s

theorem SameBut.modPosture (h : SameBut c s t) (hc : Part.posture ∈ c) (f : PostureMonitor → PostureMonitor) :
    SameBut c s (modPosture f t) := h.trans ((modPosture_sameBut f t).mono (by simpa using hc))

theorem withStore_sameBut (x : List PixelCell) (s : State) : SameBut [.store] s { s with store := x } := by
  intro p hp
  cases p with
  | store => exact absurd (List.mem_singleton_self _) hp
  | _ => rfl

theorem withOutputs_sameBut (x : Outputs) (s : State) : SameBut [.outputs] s { s with outputs := x } := by
  intro p hp
  cases p with
  | outputs => exact absurd (List.mem_singleton_self _) hp
  | _ => rfl

theorem withCutoffInput_sameBut (x : Bool) (s : State) : SameBut [.cutoffInput] s { s with cutoffInput := x } := by
  intro p hp
  cases p with
  | cutoffInput => exact absurd (List.mem_singleton_self _) hp
  | _ => rfl

theorem SameBut.notifyBoth (h : SameBut c s t) (ha : Part.port .a ∈ c) (hb : Part.port .b ∈ c) (n : Notice) :
    SameBut c s (notifyBoth n t) := h.trans ((notifyBoth_sameBut n t).mono (by simp [ha, hb]))

end

/-! ## Commands that write the slot table -/

section
variable (l : Link) (tag : Byte) (s : State)

theorem stageOpenEffect_sameBut (slot : Byte) (backdrop : Colour) :
    SameBut [.slots, .port l] s (stageOpenEffect l tag slot backdrop s) := by
  unfold stageOpenEffect
  split
  · exact (SameBut.refl _ s).answer (by simp) _ _ _ _
  · split_ifs
    · exact (SameBut.refl _ s).answer (by simp) _ _ _ _
    · exact (SameBut.refl _ s).answer (by simp) _ _ _ _
    · exact ((SameBut.refl _ s).withSlots (by simp) _).answer (by simp) _ _ _ _

theorem stageRegionEffect_sameBut (record : RegionRecord) :
    SameBut [.slots, .port l] s (stageRegionEffect l tag record s) := by
  unfold stageRegionEffect
  split
  · exact (SameBut.refl _ s).answer (by simp) _ _ _ _
  · split
    · exact (SameBut.refl _ s).answer (by simp) _ _ _ _
    · split
      · exact (SameBut.refl _ s).answer (by simp) _ _ _ _
      · exact ((SameBut.refl _ s).withSlots (by simp) _).answer (by simp) _ _ _ _

theorem stageCommitEffect_sameBut : SameBut [.slots, .port l] s (stageCommitEffect l tag s) := by
  have refused (st : Status) (r : Results) : SameBut [.slots, .port l] s (answer l tag .stageCommit st r s) :=
    (SameBut.refl _ s).answer (by simp) _ _ _ _
  unfold stageCommitEffect
  split
  · exact refused _ _
  · split
    · exact refused _ _
    · split
      · exact refused _ _
      · split
        · exact refused _ _
        · split
          · exact refused _ _
          · split
            · exact refused _ _
            · exact (((SameBut.refl _ s).withSlots (by simp) _).withSlots (by simp) _).answer (by simp) _ _ _ _

theorem stageDropEffect_sameBut : SameBut [.slots, .port l] s (stageDropEffect l tag s) := by
  unfold stageDropEffect
  split
  · exact (SameBut.refl _ s).answer (by simp) _ _ _ _
  · exact ((SameBut.refl _ s).withSlots (by simp) _).answer (by simp) _ _ _ _

theorem slotsOpenEffect_sameBut (low high outside : Byte) :
    SameBut [.slots, .port l] s (slotsOpenEffect l tag low high outside s) := by
  unfold slotsOpenEffect
  split
  · exact (SameBut.refl _ s).answer (by simp) _ _ _ _
  · split
    · split
      · exact ((SameBut.refl _ s).withSlots (by simp) _).answer (by simp) _ _ _ _
      · exact (SameBut.refl _ s).answer (by simp) _ _ _ _
    · exact (SameBut.refl _ s).answer (by simp) _ _ _ _

theorem slotsCloseEffect_sameBut : SameBut [.slots, .port l] s (slotsCloseEffect l tag s) := by
  unfold slotsCloseEffect
  split
  · exact (SameBut.refl _ s).answer (by simp) _ _ _ _
  · exact ((SameBut.refl _ s).withSlots (by simp) _).answer (by simp) _ _ _ _

theorem slotsFreezeEffect_sameBut : SameBut [.slots, .port l] s (slotsFreezeEffect l tag s) := by
  unfold slotsFreezeEffect
  split
  · exact (SameBut.refl _ s).answer (by simp) _ _ _ _
  · exact ((SameBut.refl _ s).withSlots (by simp) _).answer (by simp) _ _ _ _

theorem slotReadEffect_sameBut (slot index : Byte) : SameBut [.port l] s (slotReadEffect l tag slot index s) := by
  unfold slotReadEffect
  split <;> exact answer_sameBut _ _ _ _ _ _

/-! ## Commands that write one other part -/

theorem setHingeEffect_sameBut (fields : HingeFields) :
    SameBut [.posture, .port l] s (setHingeEffect l tag fields s) := by
  unfold setHingeEffect
  split
  · exact (SameBut.refl _ s).answer (by simp) _ _ _ _
  · exact ((SameBut.refl _ s).modPosture (by simp) _).answer (by simp) _ _ _ _

theorem hingeSnapshotEffect_sameBut : SameBut [.posture, .port l] s (hingeSnapshotEffect l tag s) := by
  unfold hingeSnapshotEffect
  split
  · exact (SameBut.refl _ s).answer (by simp) _ _ _ _
  · exact ((SameBut.refl _ s).modPosture (by simp) _).answer (by simp) _ _ _ _

theorem setAckWindowEffect_sameBut (n : Byte) : SameBut [.engine, .port l] s (setAckWindowEffect l tag n s) := by
  unfold setAckWindowEffect
  split
  · exact ((SameBut.refl _ s).withEngine (by simp) _).answer (by simp) _ _ _ _
  · exact (SameBut.refl _ s).answer (by simp) _ _ _ _

theorem ackEpochEffect_sameBut (epoch : Word) : SameBut [.engine, .port l] s (ackEpochEffect l tag epoch s) := by
  unfold ackEpochEffect
  split
  · exact (SameBut.refl _ s).answer (by simp) _ _ _ _
  · split
    · exact ((SameBut.refl _ s).withEngine (by simp) _).answer (by simp) _ _ _ _
    · exact (SameBut.refl _ s).answer (by simp) _ _ _ _

theorem regionClearEffect_sameBut (region which : Byte) :
    SameBut [.engine, .port l] s (regionClearEffect l tag region which s) := by
  unfold regionClearEffect
  split
  · dsimp only
    split_ifs
    · exact (SameBut.refl _ s).answer (by simp) _ _ _ _
    · exact (SameBut.refl _ s).answer (by simp) _ _ _ _
    · exact (SameBut.refl _ s).answer (by simp) _ _ _ _
    · exact ((SameBut.refl _ s).withEngine (by simp) _).answer (by simp) _ _ _ _
  · exact (SameBut.refl _ s).answer (by simp) _ _ _ _

theorem regionStatusEffect_sameBut (region : Byte) : SameBut [.port l] s (regionStatusEffect l tag region s) := by
  unfold regionStatusEffect
  split
  · exact answer_sameBut _ _ _ _ _ _
  · dsimp only
    split <;> exact answer_sameBut _ _ _ _ _ _

theorem setRateEffect_sameBut (rate : Byte) : SameBut [.scan, .port l] s (setRateEffect l tag rate s) := by
  unfold setRateEffect
  split
  · exact (SameBut.refl _ s).answer (by simp) _ _ _ _
  · exact ((SameBut.refl _ s).withScan (by simp) _).answer (by simp) _ _ _ _

theorem resumeEffect_sameBut (cutoff : Bool) : SameBut [.scan, .port l] s (resumeEffect l tag cutoff s) := by
  unfold resumeEffect
  split_ifs
  · exact (SameBut.refl _ s).answer (by simp) _ _ _ _
  · exact (SameBut.refl _ s).answer (by simp) _ _ _ _
  · exact ((SameBut.refl _ s).withScan (by simp) _).answer (by simp) _ _ _ _

theorem setTouchCalEffect_sameBut (gx gy ox oy : Half) :
    SameBut [.touch, .port l] s (setTouchCalEffect l tag gx gy ox oy s) := by
  unfold setTouchCalEffect
  dsimp only
  split
  · exact (SameBut.refl _ s).answer (by simp) _ _ _ _
  · exact ((SameBut.refl _ s).withTouch (by simp) _).answer (by simp) _ _ _ _

theorem statusEffect_sameBut : SameBut [.port l] s (statusEffect l tag s) :=
  ((SameBut.refl _ s).modPort (by simp) _).answer (by simp) _ _ _ _

theorem fetchEffect_sameBut : SameBut [.port l] s (fetchEffect l tag s) :=
  ((SameBut.refl _ s).modPort (by simp) _).answer (by simp) _ _ _ _

end

/-! ## Requests, follow evaluation and the commands that make them -/

theorem announce_sameBut (n : SlotNo) (cause : Cause) (who : Option Link) (layout : Layout)
    (placed : List (Region × Option Buffers)) (s : State) :
    SameBut [.engine, .port .a, .port .b] s (announce n cause who layout placed s) := by
  unfold announce
  exact ((SameBut.refl _ s).withEngine (by simp) _).trans
    (((notify_sameBut .a _ _).mono (by simp)).trans ((notify_sameBut .b _ _).mono (by simp)))

theorem steadyRequest_sameBut (n : SlotNo) (cause : Cause) (who : Option Link) (s : State) :
    SameBut [.engine, .port .a, .port .b] s (steadyRequest n cause who s).1 := by
  unfold steadyRequest
  split
  · exact SameBut.refl _ s
  · dsimp only
    split
    · exact SameBut.refl _ s
    · exact announce_sameBut _ _ _ _ _ _

theorem followRequest_sameBut (n : SlotNo) (cause : Cause) (s : State) :
    SameBut [.engine, .port .a, .port .b] s (followRequest n cause s).1 := by
  unfold followRequest
  split
  · exact steadyRequest_sameBut _ _ _ _
  · dsimp only
    split
    · exact withdraw_sameBut _ _ _
    · exact (withdraw_sameBut _ _ _).trans (steadyRequest_sameBut _ _ _ _)

/-- Follow evaluation changes the engine, the ports, and of the posture monitor the stalled flag alone. -/
theorem followEvaluation_sameBut (cause : Cause) (s : State) :
    SameBut [.posture, .engine, .port .a, .port .b] s (followEvaluation cause s).1 := by
  unfold followEvaluation
  split
  · exact SameBut.refl _ s
  · exact SameBut.refl _ s
  · split
    · exact SameBut.refl _ s
    · have h := (followRequest_sameBut ‹SlotNo› cause s).mono (d := [.posture, .engine, .port .a, .port .b]) (by simp)
      dsimp only
      rw [apply_ite Prod.fst]
      split
      · exact h.modPosture (by simp) (fun m => { m with stalled := true })
      · exact h

theorem followEvaluation_posture (cause : Cause) (s : State) : (followEvaluation cause s).1.posture =
    { s.posture with stalled := (followEvaluation cause s).1.posture.stalled } := by
  unfold followEvaluation
  split
  · rfl
  · rfl
  · split
    · rfl
    · have h := (followRequest_sameBut ‹SlotNo› cause s).posture (by simp)
      dsimp only
      split
      · simp [h]
      · rw [h]

theorem evaluateAndTell_sameBut (cause : Cause) (reason : PostureReason) (s : State) :
    SameBut [.posture, .engine, .port .a, .port .b] s (evaluateAndTell cause reason s).1 :=
  (followEvaluation_sameBut cause s).notifyBoth (by simp) (by simp) _

theorem evaluateAndTell_posture (cause : Cause) (reason : PostureReason) (s : State) :
    (evaluateAndTell cause reason s).1.posture =
      { s.posture with stalled := (evaluateAndTell cause reason s).1.posture.stalled } := by
  have h : (evaluateAndTell cause reason s).1.posture = (followEvaluation cause s).1.posture :=
    (notifyBoth_sameBut _ _).posture (by simp)
  rw [h]
  exact followEvaluation_posture cause s

section
variable (l : Link) (tag : Byte) (s : State)

theorem setFaceEffect_sameBut (face : Byte) :
    SameBut [.posture, .engine, .port .a, .port .b] s (setFaceEffect l tag face s) := by
  unfold setFaceEffect
  split
  · exact (SameBut.refl _ s).answer (by cases l <;> simp) _ _ _ _
  · exact (((SameBut.refl _ s).modPosture (by simp) _).trans (evaluateAndTell_sameBut _ _ _)).answer
      (by cases l <;> simp) _ _ _ _

theorem bindEffect_sameBut (posture face slot : Byte) :
    SameBut [.posture, .engine, .port .a, .port .b] s (bindEffect l tag posture face slot s) := by
  have refused (st : Status) (r : Results) :
      SameBut [.posture, .engine, .port .a, .port .b] s (answer l tag .bind st r s) :=
    (SameBut.refl _ s).answer (by cases l <;> simp) _ _ _ _
  unfold bindEffect
  split
  · exact refused _ _
  · split
    · exact refused _ _
    · split
      · exact refused _ _
      · exact (((SameBut.refl _ s).modPosture (by simp) _).trans (evaluateAndTell_sameBut _ _ _)).answer
          (by cases l <;> simp) _ _ _ _

theorem switchEffect_sameBut (slot : Byte) : SameBut [.engine, .port .a, .port .b] s (switchEffect l tag slot s) := by
  have hl : Part.port l ∈ [Part.engine, .port .a, .port .b] := by cases l <;> simp
  unfold switchEffect
  split
  · exact (SameBut.refl _ s).answer hl _ _ _ _
  · next n _ =>
    split_ifs
    · exact (SameBut.refl _ s).answer hl _ _ _ _
    · exact (SameBut.refl _ s).answer hl _ _ _ _
    · have h := steadyRequest_sameBut n (.switchBy l) (some l) s
      split <;> next heq => 
        rw [heq] at h
        first | exact h.answer hl _ _ _ _ | exact h.modPort hl _

theorem abortEffect_sameBut (condition quiet : Byte) :
    SameBut [.engine, .port .a, .port .b] s (abortEffect l tag condition quiet s) := by
  have hl : Part.port l ∈ [Part.engine, .port .a, .port .b] := by cases l <;> simp
  unfold abortEffect
  split
  · exact (SameBut.refl _ s).answer hl _ _ _ _
  · split
    · exact (SameBut.refl _ s).answer hl _ _ _ _
    · split
      · exact (abortRunning_sameBut _ _ _).answer hl _ _ _ _
      · exact ((SameBut.refl _ s).modPort hl _).answer hl _ _ _ _

end

/-! ## Lines and marks -/

theorem SameBut.updateRecord {c : List Part} {s t : State} (h : SameBut c s t) (hc : Part.engine ∈ c)
    (k : RuntimeRecord) (f : RuntimeRecord → RuntimeRecord) : SameBut c s (updateRecord k f t) :=
  h.withEngine hc _

section
variable (l : Link) (s : State)

theorem streamLine_sameBut (r : RuntimeRecord) (p : Line) : SameBut [.port l] s (streamLine l r p s) := by
  unfold streamLine
  split_ifs <;> exact modPort_sameBut _ _ _

theorem storeLine_sameBut (r : RuntimeRecord) (p : Line) :
    SameBut [.engine, .store, .port l] s (storeLine l r p s) := by
  have counted : SameBut [.engine, .store, .port l] s (countOn l .malformed 1 s) :=
    (SameBut.refl _ s).count (by simp) _
  have stored (m : List PixelCell) : SameBut [.engine, .store, .port l] s { s with store := m } :=
    (withStore_sameBut m s).mono (by simp)
  unfold storeLine
  dsimp only
  split
  · exact counted
  · split
    · exact counted
    · split
      · exact (stored _).updateRecord (by simp) _ _
      · split
        · exact counted
        · split
          · exact counted
          · exact (stored _).updateRecord (by simp) _ _

theorem lineEffect_sameBut (p : Line) : SameBut [.engine, .store, .port l] s (lineEffect l p s) := by
  unfold lineEffect
  split
  · exact (SameBut.refl _ s).count (by simp) _
  · split_ifs
    · exact (streamLine_sameBut _ _ _ _).mono (by simp)
    · exact (SameBut.refl _ s).count (by simp) _
    · exact storeLine_sameBut _ _ _ _

/-- A mark counts on its link, or does to its record what its effect does. -/
theorem markEffect_sameBut (region : Byte) (epoch : Word) {effect : RuntimeRecord → State → State}
    (heffect : ∀ r, SameBut [.engine, .port l] s (effect r s)) :
    SameBut [.engine, .port l] s (markEffect l region epoch effect s) := by
  unfold markEffect
  split
  · exact (SameBut.refl _ s).count (by simp) _
  · split_ifs
    · exact (SameBut.refl _ s).count (by simp) _
    · exact (SameBut.refl _ s).count (by simp) _
    · exact heffect _

theorem endChecked_sameBut (r : RuntimeRecord) : SameBut [.engine, .port l] s (endChecked l r s) := by
  unfold endChecked endFrame
  split_ifs
  · exact (SameBut.refl _ s).count (by simp) _
  · exact (SameBut.refl _ s).updateRecord (by simp) _ _
  · exact (SameBut.refl _ s).updateRecord (by simp) _ _

theorem portResetEffect_sameBut (tag : Byte) :
    SameBut [.slots, .engine, .touch, .port l] s (portResetEffect l tag s) := by
  have h : SameBut [.slots, .engine, .touch, .port l] s (portResetEffects l s) :=
    (((SameBut.refl _ s).modPort (by simp) (fun _ => resetPort (s.port l))).withSlots (by simp) _).withEngine (by simp) _
      |>.withTouch (by simp) _
  unfold portResetEffect
  dsimp only
  split
  · exact (h.trans ((notify_sameBut l _ _).mono (by simp))).answer (by simp) _ _ _ _
  · exact h.answer (by simp) _ _ _ _

end

/-! ## Single events -/

theorem cutoffEffect_sameBut (s : State) :
    SameBut [.scan, .touch, .cutoffInput, .port .a, .port .b] s (cutoffEffect s) := by
  have h : SameBut [.scan, .touch, .cutoffInput, .port .a, .port .b] s { s with cutoffInput := true } :=
    (withCutoffInput_sameBut true s).mono (by simp)
  exact ((h.withScan (by simp) _).notifyBoth (by simp) (by simp) _).trans
    ((cancelContacts_spec .cutoff [] _).1.mono (by simp))

theorem postureWaitDone_sameBut (l : Link) (s : State) : SameBut [.port l] s (postureWaitDone l s) := by
  unfold postureWaitDone
  split
  · exact finish_sameBut _ _ _ _
  · exact SameBut.refl _ s

theorem tellPosture_sameBut (l : Link) (first : Bool) (s : State) :
    SameBut [.engine, .port .a, .port .b] s (tellPosture l first s) := by
  have done (u : State) : SameBut [.engine, .port .a, .port .b] u (postureWaitDone l u) :=
    (postureWaitDone_sameBut l u).mono (by cases l <;> simp)
  unfold tellPosture
  split
  · exact (abortArmed_sameBut _ _ _).trans (done _)
  · exact (done s).trans (abortArmed_sameBut _ _ _)

theorem postureChange_sameBut (order : LinkSet) (s : State) :
    SameBut [.posture, .engine, .port .a, .port .b] s (postureChange order s) :=
  (evaluateAndTell_sameBut _ _ _).trans
    (((tellPosture_sameBut _ _ _).trans (tellPosture_sameBut _ _ _)).mono (by simp))

/-- A posture change alters nothing of the posture monitor but the stalled flag. -/
theorem postureChange_posture (order : LinkSet) (s : State) :
    (postureChange order s).posture = { s.posture with stalled := (postureChange order s).posture.stalled } := by
  have h : (postureChange order s).posture = (evaluateAndTell .posture .posture s).1.posture :=
    ((tellPosture_sameBut .a _ _).trans (tellPosture_sameBut .b _ _)).posture (by simp)
  rw [h]
  exact evaluateAndTell_posture _ _ _

theorem sensorSeen_sameBut (s : State) : SameBut [.posture, .port .a, .port .b] s (sensorSeen s) := by
  unfold sensorSeen
  dsimp only
  split
  · exact ((SameBut.refl _ s).modPosture (by simp) _).notifyBoth (by simp) (by simp) _
  · exact (SameBut.refl _ s).modPosture (by simp) _

theorem acceptSample_sameBut (period high : Nat) (order : LinkSet) (s : State) :
    SameBut [.posture, .engine, .port .a, .port .b] s (acceptSample period high order s) := by
  have h := (((sensorSeen_sameBut s).mono (d := [.posture, .engine, .port .a, .port .b]) (by simp)).modPosture
    (by simp) (recordSample period high)).modPosture (by simp)
      (fun m => dwellStep m (candidateNow (modPosture (recordSample period high) (sensorSeen s)).posture))
  unfold acceptSample
  dsimp only
  split
  · exact (h.trans (postureChange_sameBut _ _)).modPosture (by simp) _
  · exact h.modPosture (by simp) _

theorem risingEdge_sameBut (ticks : Nat) (order : LinkSet) (s : State) :
    SameBut [.posture, .engine, .port .a, .port .b] s (risingEdge ticks order s) := by
  have h := (SameBut.refl [.posture, .engine, .port .a, .port .b] s).modPosture (by simp)
    (fun m => { m with measurement := some ⟨none⟩ })
  unfold risingEdge takeSample
  dsimp only
  split
  · exact h
  · split
    · exact h.trans (acceptSample_sameBut _ _ _ _)
    · exact h.modPosture (by simp) _

theorem timeoutEffect_sameBut (s : State) : SameBut [.posture, .port .a, .port .b] s (timeoutEffect s) := by
  unfold timeoutEffect
  split
  · exact ((SameBut.refl _ s).modPosture (by simp) _).notifyBoth (by simp) (by simp) _
  · exact SameBut.refl _ s

theorem makeSwitch_sameBut (late : LinkSet) (s : State) :
    SameBut [.posture, .engine, .touch, .port .a, .port .b] s (makeSwitch late s) := by
  unfold makeSwitch
  split
  · exact SameBut.refl _ s
  · next p _ =>
    dsimp only
    have hswitched := ((SameBut.refl [.posture, .engine, .touch, .port .a, .port .b] s).withEngine (by simp)
      (switchedEngine p s.engine)).notifyBoth (by simp) (by simp)
        (.active p.epoch p.slot p.generation s.scan.frame late)
    refine ((hswitched.trans ((cancelContacts_spec .switch (carriedTags s.engine) _).1.mono (by simp))).modPosture (by simp)
      (fun m => { m with stalled := false })).trans ?_
    exact ((switchDone_sameBut _ _ _).mono (by simp)).trans
      (((epochWaitDone_sameBut .a _ _).mono (by simp)).trans ((epochWaitDone_sameBut .b _ _).mono (by simp)))

theorem setWindow_sameBut (n : Nat) (s : State) : SameBut [.engine] s (setWindow n s) := withEngine_sameBut _ s

theorem engineFrame_sameBut (s : State) :
    SameBut [.posture, .engine, .touch, .port .a, .port .b] s (engineFrame s) := by
  unfold engineFrame
  split
  · exact SameBut.refl _ s
  · split_ifs
    · exact makeSwitch_sameBut _ _
    · exact makeSwitch_sameBut _ _
    · exact (setWindow_sameBut _ _).mono (by simp)

theorem frameStart_sameBut (order : LinkSet) (s : State) :
    SameBut [.posture, .engine, .scan, .touch, .port .a, .port .b, .outputs] s (frameStart order s) := by
  have hscan : SameBut [.posture, .engine, .scan, .touch, .port .a, .port .b, .outputs] s (scanFrame (finishFrame s)) :=
    ((finishFrame_sameBut s).mono (by simp)).trans ((scanFrame_sameBut _).mono (by simp))
  have hfirst := hscan.trans (((abortIfFirst_sameBut .a order.a _).trans (abortIfFirst_sameBut .b order.b _)).mono
    (by simp))
  have hengine := hfirst.trans (((storeFrame_sameBut _).mono (by simp)).trans
    ((engineFrame_sameBut _).mono (by simp)))
  exact hengine.trans (((portFrame_sameBut .a _).trans (portFrame_sameBut .b _)).mono (by simp))

theorem applyEntry_sameBut (c : TouchId) (k : TouchKind) (tx ty : Nat) (s : State) :
    SameBut [.touch, .port .a, .port .b] s (applyEntry c k tx ty s) := by
  have set (x : Contact) (u : State) : SameBut [.touch, .port .a, .port .b] u (setContact c x u) :=
    (withTouch_sameBut _ u).mono (by simp)
  have told (l : Link) (n : Notice) (u : State) : SameBut [.touch, .port .a, .port .b] u (notify l n u) :=
    (notify_sameBut l n u).mono (by cases l <;> simp)
  unfold applyEntry
  dsimp only
  split
  · exact SameBut.refl _ s
  · unfold startContact
    split
    · exact set _ _
    · split
      · exact set _ _
      · exact (set _ _).trans (told _ _ _)
  · exact (set _ _).trans (told _ _ _)
  · exact (set _ _).trans (told _ _ _)
  · exact set _ _
  · exact SameBut.refl _ s

theorem applyEntries_sameBut (es : List CheckedEntry) (s : State) :
    SameBut [.touch, .port .a, .port .b] s (applyEntries es s) := by
  induction es generalizing s with
  | nil => exact SameBut.refl _ s
  | cons e es ih => exact (applyEntry_sameBut _ _ _ _ _).trans (ih _)

theorem takeReport_sameBut (count : Byte) (entries : List TouchEntry) (s : State) :
    SameBut [.touch, .port .a, .port .b] s (takeReport count entries s) := by
  unfold takeReport
  split
  · exact (withTouch_sameBut _ s).mono (by simp)
  · exact applyEntries_sameBut _ _

theorem sendResponse_sameBut (l : Link) (s : State) : SameBut [.port l, .outputs] s (sendResponse l s) := by
  unfold sendResponse
  split
  · exact SameBut.refl _ s
  · exact ((SameBut.refl [.port l, .outputs] s).modPort (by simp) _).trans
      ((withOutputs_sameBut _ _).mono (by simp))

/-! ## The table holds -/

theorem slotEffect_sameBut {i : Instr} {l : Link} {tag : Byte} {c : Command} (h : slotUser i = some (l, tag, c))
    (s : State) : SameBut (changedBy i) s (slotEffect i s) := by
  cases i <;> cases h
  case stageOpen.refl => exact stageOpenEffect_sameBut _ _ _ _ _
  case stageRegion.refl => exact stageRegionEffect_sameBut _ _ _ _
  case stageCommit.refl => exact stageCommitEffect_sameBut _ _ _
  case stageDrop.refl => exact stageDropEffect_sameBut _ _ _
  case slotRead.refl => exact slotReadEffect_sameBut _ _ _ _ _
  case slotsOpen.refl => exact slotsOpenEffect_sameBut _ _ _ _ _ _
  case slotsClose.refl => exact slotsCloseEffect_sameBut _ _ _
  case slotsFreeze.refl => exact slotsFreezeEffect_sameBut _ _ _
  case setHinge.refl => exact setHingeEffect_sameBut _ _ _ _
  case setFace.refl => exact setFaceEffect_sameBut _ _ _ _
  case bind.refl => exact bindEffect_sameBut _ _ _ _ _ _
  case postureRead.refl => exact answer_sameBut _ _ _ _ _ _
  case hingeSnapshot.refl => exact hingeSnapshotEffect_sameBut _ _ _
  case switch.refl => exact switchEffect_sameBut _ _ _ _
  case setAckWindow.refl => exact setAckWindowEffect_sameBut _ _ _ _
  case regionClear.refl => exact regionClearEffect_sameBut _ _ _ _ _
  case regionStatus.refl => exact regionStatusEffect_sameBut _ _ _ _
  case setRate.refl => exact setRateEffect_sameBut _ _ _ _
  case resume.refl => exact resumeEffect_sameBut _ _ _ _
  case setTouchCal.refl => exact setTouchCalEffect_sameBut _ _ _ _ _ _ _
  case setQuiet.refl => exact setQuietEffect_sameBut _ _ _ _
  case wait.refl => exact waitEffect_sameBut _ _ _ _ _

theorem immediateEffect_sameBut {i : Instr} {l : Link} (h : immediateLink i = some l) (s : State) :
    SameBut (changedBy i) s (immediateEffect i s) := by
  cases i <;> cases h
  case unknownCommand.refl => exact respond_sameBut _ _ _ _ _ _
  case ackEpoch.refl => exact ackEpochEffect_sameBut _ _ _ _
  case abort.refl => exact abortEffect_sameBut _ _ _ _ _
  case status.refl => exact statusEffect_sameBut _ _ _
  case fetch.refl => exact fetchEffect_sameBut _ _ _

theorem pixelEffect_sameBut {i : Instr} {l : Link} (h : pixelLink i = some l) (s : State) :
    SameBut (changedBy i) s (pixelEffect i s) := by
  cases i <;> cases h
  case line.refl => exact lineEffect_sameBut _ _ _
  case beginMark.refl =>
    exact markEffect_sameBut l s _ _ (fun r => (SameBut.refl _ s).updateRecord (by simp) _ _)
  case endMark.refl => exact markEffect_sameBut l s _ _ (endChecked_sameBut l s)

theorem eventEffect_sameBut {i : Instr} (hp : packetLink i = none) (hb : isBytes i = false) (s : State) :
    SameBut (changedBy i) s (eventEffect i s) := by
  have due {b : Bool} : SameBut [.posture, .engine, .scan, .touch, .port .a, .port .b, .outputs] s
      (if b then frameStart completionsFirst s else s) := by
    split
    · exact frameStart_sameBut _ _
    · exact SameBut.refl _ s
  have ended {c : List Part} (ready : Bool) {u : State} (h : SameBut c s u) (hc : Part.touch ∈ c) :
      SameBut c s (if s.touch.reading then setReading ready u else s) := by
    split
    · exact h.withTouch hc _
    · exact SameBut.refl _ s
  cases i
  case cutoffAssert => exact cutoffEffect_sameBut s
  case hingeFall => exact modPosture_sameBut _ _
  case hingeRise => exact risingEdge_sameBut _ _ _
  case sensorTimeout => exact timeoutEffect_sameBut s
  case frameStart => exact frameStart_sameBut _ _
  case ackWindowExpiry => exact due
  case quietDetect => exact due
  case waitFrameDone => exact due
  case rowScan =>
    simp only [eventEffect, changedBy]
    split
    · exact SameBut.refl _ s
    · exact scanRow_sameBut _ _
  case touchReadStart => exact withTouch_sameBut _ s
  case touchReadTimeout ready => exact ended (c := [.touch]) ready (withTouch_sameBut _ s) (by simp)
  case touchReport ready => exact ended (c := [.touch, .port .a, .port .b]) ready (takeReport_sameBut _ _ _) (by simp)
  case responseSent => exact sendResponse_sameBut _ _
  case badPacket => cases hb
  case powerOnReset => exact SameBut.refl _ s
  case resetInput => exact SameBut.refl _ s
  case resetEnd => exact SameBut.refl _ s
  case protectPulse => exact SameBut.refl _ s
  all_goals cases hp

end Sys2Proof.Machine
end

section
/-! PROOFS. The statements about the step and the resets. -/

namespace Sys2Proof.Machine

/-- Settles O1: both clauses are the step's two cases. -/
theorem stepRunsFrontCommand : Obligations.StepRunsFrontCommand :=
  ⟨fun _ _ _ => rfl, fun s hs => by simp [step, hs]⟩

/-- No packet writes the queue. -/
theorem packetsKeep_queue (q : List Instr) : PacketsKeep (fun s => s.pending = q) where
  arrives l s h := (arrive_pending s l).trans h
  counts l k s h := h
  responds l tag code st r s h _ := h
  levels level s h := h
  slotEffects i l tag c s hi _ _ h :=
    ((slotEffect_sameBut hi s).queue (by cases i <;> cases hi <;> simp [changedBy])).trans h
  immediateEffects i l s hi _ h :=
    ((immediateEffect_sameBut hi s).queue (by cases i <;> cases hi <;> simp [changedBy])).trans h
  pixelEffects i l s hi h :=
    ((pixelEffect_sameBut hi s).queue (by cases i <;> cases hi <;> simp [changedBy])).trans h
  portResets l tag s _ h := ((portResetEffect_sameBut l s tag).queue (by simp)).trans h

theorem queue_not_changedBy (i : Instr) : Part.queue ∉ changedBy i := by
  cases i <;> simp [changedBy]

theorem exec_keeps_queue {i : Instr} {s t : State} (ht : exec i s = .next t) : t.pending = s.pending := by
  cases hr : takenInReset i with
  | false =>
    exact (packetsKeep_queue s.pending).exec hr
      (fun hp hb _ _ => (eventEffect_sameBut hp hb s).queue (queue_not_changedBy i)) rfl ht
  | true =>
    cases i <;> cases hr <;> obtain rfl := Host.Outcome.next.inj ht
    case true.powerOnReset.refl | true.resetInput.refl => rfl
    case true.resetEnd.refl | true.protectPulse.refl => split <;> rfl

/-- Settles O2: every arm of `exec` answers a next state, and the queue is in the frame of every command. -/
theorem everyCommandCompletesAndKeepsQueue : Obligations.EveryCommandCompletesAndKeepsQueue := by
  intro c s
  obtain ⟨t, ht⟩ := exec_next c s
  exact ⟨t, ht, exec_keeps_queue ht⟩

/-! ## The resets -/

theorem get_replicate {α : Type} {n : Nat} (x : α) (i : Fin n) : (Vector.replicate n x).get i = x := by
  simp [Vector.get_eq_getElem]

theorem fresh_slotUse (k : Nat) (n : SlotNo) : slotUse (Engine.fresh k) n = .none := rfl

/-- The range 0 to 7 with the outside flag clear leaves no slot locked (R24). -/
theorem powerOn_not_locked (n : SlotNo) : slotLocked SlotTable.powerOn n = false := by
  revert n
  decide

/-- Settles O3: field by field, the state that `powerOn` writes. -/
theorem powerOnResetsEveryBlock : Obligations.PowerOnResetsEveryBlock := by
  intro s
  refine ⟨powerOn s, rfl, fun n => ⟨get_replicate _ n, powerOn_not_locked n, fresh_slotUse 4 n⟩, ?_⟩
  refine ⟨rfl, rfl, rfl, rfl, rfl, rfl, rfl, rfl, rfl, rfl, rfl, rfl, rfl, rfl, rfl, rfl, rfl, rfl, rfl, rfl,
    fun c => get_replicate _ c, fun l => ?_⟩
  cases l <;> exact ⟨rfl, rfl⟩

/-- Settles O4: field by field, the state that `resetInput` writes. -/
theorem resetInputKeepsSettings : Obligations.ResetInputKeepsSettings := by
  intro s
  refine ⟨resetInput s, rfl, rfl, fresh_slotUse _, ?_⟩
  refine ⟨rfl, rfl, rfl, rfl, rfl, rfl, rfl, rfl, rfl, rfl, rfl, rfl, rfl, rfl, rfl, fun c => get_replicate _ c,
    fun l => ?_⟩
  cases l <;> exact ⟨rfl, rfl⟩

theorem endReset_sameBut (cutoff ready : Bool) (s : State) :
    SameBut [.scan, .touch, .cutoffInput, .phase, .outputs] s (endReset cutoff ready s) := by
  intro p hp
  cases p <;> first | rfl | exact absurd (by simp) hp

/-- Settles O5: a held part's commands are `exec_inReset`; the end of a reset is what `endReset` writes. -/
theorem resetHoldsPartUntilItsEnd : Obligations.ResetHoldsPartUntilItsEnd := by
  refine ⟨fun c s hs hc => exec_inReset hs hc, fun s => ⟨_, _, rfl, rfl, rfl, rfl⟩, fun s cutoff ready =>
    ⟨fun hs => ⟨endReset cutoff ready s, ?_, endReset_sameBut cutoff ready s, rfl, rfl, rfl, rfl, rfl⟩, fun hs => ?_⟩⟩
  · exact congrArg Host.Outcome.next (if_neg hs)
  · exact congrArg Host.Outcome.next (if_pos hs)

/-- Settles O60: the reset state is a closed term, its laws decidable. -/
theorem resetMeetsEveryLaw : Obligations.ResetMeetsEveryLaw := by
  have hengine : State.reset.engine = Engine.fresh 4 := rfl
  refine ⟨by decide, by decide, ⟨fun n => ?_, by decide, by decide, by decide⟩,
    by simp [State.reset, Engine.fresh, ActiveLayout.empty]; decide, ⟨?_, rfl⟩,
    ?_, fun c => ?_⟩
  · exact (get_replicate Layout.blank n).symm ▸ rfl
  · simp [RunsOk, hengine, Engine.fresh]
  · simp [RecordsOk, hengine, Engine.fresh, ActiveLayout.empty, activeRecords, pendingRecords]
  · exact (get_replicate Contact.free c).symm ▸ rfl

end Sys2Proof.Machine
end

section
/-! PROOFS. The induction behind the laws that every step keeps, packaged once: what has to be shown of the operations on
a port and of the operations on the other blocks, and that every command then keeps the property. -/

namespace Sys2Proof.Machine

/-- A command that a slot holds and that is a WAIT. -/
def Running.isWait : Running → Bool
  | .switch _ => false
  | _ => true

/-- A line or mark on link `l` finds its record: an owned record that resolution gives. -/
abbrev FindsRecord (l : Link) (r : RuntimeRecord) (s : State) : Prop :=
  (∃ epoch tag, resolve s.engine epoch tag = some r) ∧ r.region.owner = some l

/-- A property that the operations on single ports keep. -/
structure PortOpsKeep (P : State → Prop) : Prop where
  notifies : ∀ l n s, P s → P (notify l n s)
  counts : ∀ l k n s, P s → P (countOn l k n s)
  comesOnline : ∀ l s, P s → P (comeOnline l s)
  responds : ∀ l tag code st r s, (s.port l).responses.length ≤ 8 →
    ((s.port l).slot ≠ none → (s.port l).responses.length < 8) → P s → P (respond l tag code st r s)
  finishesWait : ∀ l st res r s, (s.port l).slot = some r → r.isWait = true → P s → P (finish l st res s)
  emptiesWait : ∀ l r s, (s.port l).slot = some r → r.isWait = true → P s → P (emptySlot l s)
  startsWait : ∀ l r s, SlotFree l s → r.isWait = true → waitOk (some r) = true → P s →
    P (s.modPort l (fun p => { p with slot := some r }))
  countsDown : ∀ l tag n s, (s.port l).slot = some (.waitFrame tag n) → 1 < n → P s →
    P (s.modPort l (fun p => { p with slot := some (.waitFrame tag (n - 1)) }))
  arms : ∀ l a s, (s.port l).slot ≠ none → P s → P (s.modPort l (fun p => { p with armed := some a }))
  countsQuiet : ∀ l s, P s → P (s.modPort l countQuiet)
  setsQuiet : ∀ l n s, 1 ≤ n → n ≤ 255 → (s.port l).quiet = 0 → P s →
    P (s.modPort l (fun p => { p with quietFrames := n }))
  clearsCounters : ∀ l s, P s → P (s.modPort l (fun p => { p with counters := Counters.zero }))
  fetches : ∀ l n s, P s → P (s.modPort l (fun p => { p with notices := p.notices.drop n }))
  sends : ∀ l r rs s, (s.port l).responses = r :: rs → P s → P (s.modPort l (fun p => { p with responses := rs }))
  streams : ∀ l q s, q.length ≤ 48 ∨ q.length ≤ (s.port l).stream.length → P s → P (s.modPort l (Port.setStream q))

/-- A property that the operations on the other blocks keep, each where the rules let it through. -/
structure BlockOpsKeep (P : State → Prop) : Prop where
  frames : ∀ s t, SameBut [.posture, .scan, .cutoffInput, .phase, .outputs, .queue] s t → P s → P t
  touches : ∀ x s, x.contacts = s.touch.contacts → P s → P { s with touch := x }
  entries : ∀ c k tx ty s, P s → P (applyEntry c k tx ty s)
  cancels : ∀ s, P s → P (cancelContacts .cutoff [] s)
  withdraws : ∀ reason quiet s, P s → P (withdraw reason quiet s)
  requests : ∀ n cause s, s.engine.pending = none → s.engine.active.slot ≠ some n → P s →
    P (steadyRequest n cause none s).1
  holdsSwitch : ∀ l tag n u s, SlotFree l s → s.engine.pending = none → s.engine.active.slot ≠ some n →
    steadyRequest n (.switchBy l) (some l) s = (u, .announced) → P s → P (holdSwitch l tag u)
  switches : ∀ late s, P s → P (makeSwitch late s)
  windows : ∀ n p s, s.engine.pending = some p → 1 ≤ n → n ≤ p.window → P s → P (setWindow n s)
  acks : ∀ l p s, s.engine.pending = some p → P s →
    P { s with engine := { s.engine with pending := some (acknowledge l p) } }
  setsAckWindow : ∀ n s, 1 ≤ n → n ≤ 15 → P s → P { s with engine := { s.engine with ackFrames := n } }
  opensStaging : ∀ l n backdrop s, P s → P (setStaging l (some { slot := n, backdrop := backdrop, records := [] }) s)
  stages : ∀ l st record r s, stagingOf l s = some st → checkRegion record = .ok r → st.records.length < 8 → P s →
    P (setStaging l (some { st with records := st.records ++ [r] }) s)
  closesStaging : ∀ l s, P s → P (setStaging l none s)
  commits : ∀ l st s, stagingOf l s = some st → slotUse s.engine st.slot = .none →
    firstPair overlaps 0 st.records = none → firstPair sameTag 0 st.records = none →
    layoutNeed st.records ≤ 1536 → P s →
    P (setStaging l none (setLayout st.slot (committedLayout st (layoutOf st.slot s)) s))
  setsRange : ∀ low high outside s, low ≤ high → P s → P (setRange low high outside s)
  setsFreeze : ∀ f s, P s → P (setFreeze f s)
  flips : ∀ s, P s → P (storeFrame s)
  clears : ∀ l t w s, P s → P (clearRegions l t w s)
  stores : ∀ l r p s, FindsRecord l r s → r.region.content ≠ .streamed → P s → P (storeLine l r p s)
  begins : ∀ l r s, FindsRecord l r s → isDouble r = true → P s → P (beginFrame r s)
  ends : ∀ l r s, FindsRecord l r s → isDouble r = true → backStateOf r = .writing → P s → P (endFrame r s)
  opensGate : ∀ l r q s, q ∈ s.engine.records → q.region = r.region → q.membership = r.membership →
    r.membership ≠ .pending → r.region.owner = some l → P s → P (updateRecord r openGate s)
  resetsPort : ∀ l s, TakesCommand l s → P s → P (portResetEffects l s)
  powersOn : ∀ s, P s → P (powerOn s)
  resets : ∀ s, P s → P (resetInput s)

/-! ## The gates that a scan opens -/

/-- Between two engines, gates of records of the active layout have opened and nothing else has changed. -/
def OpensGates (e f : Engine) : Prop :=
  ∃ change : RuntimeRecord → RuntimeRecord, f = { e with records := e.records.map change }
    ∧ ∀ r, change r = r ∨ (r.membership ≠ .pending ∧ change r = { r with gate := .opened })

theorem OpensGates.refl (e : Engine) : OpensGates e e := ⟨id, by simp, fun _ => .inl rfl⟩

theorem OpensGates.trans {e f g : Engine} (h1 : OpensGates e f) (h2 : OpensGates f g) : OpensGates e g := by
  obtain ⟨c1, rfl, hc1⟩ := h1
  obtain ⟨c2, rfl, hc2⟩ := h2
  refine ⟨c2 ∘ c1, by simp, fun r => ?_⟩
  obtain heq | ⟨hm, heq⟩ := hc1 r
  · simpa [heq] using hc2 r
  · obtain heq' | ⟨-, heq'⟩ := hc2 (c1 r)
    · exact .inr ⟨hm, heq'.trans heq⟩
    · exact .inr ⟨hm, heq'.trans (by simp [heq])⟩

theorem openGate_cases (r : RuntimeRecord) :
    openGate r = r ∨ (r.membership ≠ .pending ∧ openGate r = { r with gate := .opened }) := by
  unfold openGate
  split
  · exact .inl rfl
  · exact .inr ⟨‹_›, rfl⟩

theorem updateRecord_openGate_opensGates (k : RuntimeRecord) (s : State) :
    OpensGates s.engine (updateRecord k openGate s).engine := by
  refine ⟨_, rfl, fun r => ?_⟩
  split
  · exact openGate_cases r
  · exact .inl rfl

theorem examineOn_engine (l : Link) (row col : Nat) (s : State) : (examineOn l row col s).1.engine = s.engine := rfl

theorem countLate_engine (l : Link) (r : RuntimeRecord) (s : State) : (countLate l r s).engine = s.engine := by
  unfold countLate
  split <;> rfl

theorem scanStreamed_opensGates (l : Link) (row : Nat) (r : RuntimeRecord) (s : State) :
    OpensGates s.engine (scanStreamed l row r s).1.engine := by
  unfold scanStreamed
  split <;> next heq =>
    have h := (congrArg (fun x => x.1.engine) heq).symm.trans (examineOn_engine l row _ s)
    rw [← h]
    first | exact updateRecord_openGate_opensGates .. | exact (countLate_engine ..).symm ▸ .refl _

theorem scanSegment_opensGates (row : Nat) (r : RuntimeRecord) (s : State) :
    OpensGates s.engine (scanSegment row r s).1.engine := by
  unfold scanSegment
  split
  · exact .refl _
  · exact scanStreamed_opensGates ..
  · exact .refl _

theorem scanSegments_opensGates (row : Nat) (rs : List RuntimeRecord) (s : State) :
    OpensGates s.engine (scanSegments row rs s).1.engine := by
  induction rs generalizing s with
  | nil => exact .refl _
  | cons r rs ih => exact (scanSegment_opensGates row r s).trans (ih _)

/-- A segment of a row stands for a record of the engine, whose gate may have opened since. -/
def SegmentOf (e : Engine) (r : RuntimeRecord) : Prop :=
  ∃ q ∈ e.records, q.region = r.region ∧ q.membership = r.membership

theorem SegmentOf.opensGates {e f : Engine} {r : RuntimeRecord} (h : SegmentOf e r) (hf : OpensGates e f) :
    SegmentOf f r := by
  obtain ⟨q, hq, hregion, hmember⟩ := h
  obtain ⟨change, rfl, hchange⟩ := hf
  refine ⟨change q, List.mem_map_of_mem hq, ?_⟩
  obtain heq | ⟨-, heq⟩ := hchange q <;> simp [heq, hregion, hmember]

theorem mem_rowSegments {row : Nat} {e : Engine} {r : RuntimeRecord} (h : r ∈ rowSegments row e) :
    r ∈ activeRecords e := (List.mem_filter.mp ((rowSegments_perm row e).mem_iff.mp h)).1

theorem mem_activeRecords {e : Engine} {r : RuntimeRecord} :
    r ∈ activeRecords e ↔ r ∈ e.records ∧ r.membership ≠ .pending := by
  simp [activeRecords]

theorem mem_pendingRecords {e : Engine} {r : RuntimeRecord} :
    r ∈ pendingRecords e ↔ r ∈ e.records ∧ r.membership ≠ .active := by
  simp [pendingRecords]

theorem examine_queue_length (e : Engine) (frame : Word) (l : Link) (row col : Nat) (q : List Line) :
    (examine e frame l row col q).queue.length ≤ q.length := by
  obtain ⟨gone, rest, rfl, -, -, ⟨-, hq, -⟩ | ⟨p, ps, rfl, -, hq, -⟩ | ⟨p, ps, rfl, -, hq, -⟩⟩ :=
    examine_splits_queue e frame l row col q
  all_goals simp [hq]
  omega

/-! ## Operations made of these -/

namespace PortOpsKeep
variable {P : State → Prop} (hP : PortOpsKeep P)
include hP

theorem notifiesBoth (n : Notice) {s : State} (h : P s) : P (notifyBoth n s) :=
  hP.notifies .b n _ (hP.notifies .a n s h)

theorem arrives (l : Link) {s : State} (h : P s) : P (arrive l s) := by
  unfold arrive
  split
  · exact hP.notifies l _ _ (hP.comesOnline l s h)
  · exact hP.comesOnline l s h

theorem answers {l : Link} {s : State} (hroom : (s.port l).responses.length < 8) (tag : Byte) (c : Command)
    (st : Status) (r : Results) (h : P s) : P (answer l tag c st r s) :=
  hP.responds l tag _ st r s hroom.le (fun _ => hroom) h

theorem examinesOn (l : Link) (row col : Nat) {s : State} (h : P s) : P (examineOn l row col s).1 := by
  have hqueue := examine_queue_length s.engine s.scan.frame l row col (s.port l).stream
  have hstream := hP.streams l _ s (.inr hqueue) h
  have hcount := hP.counts l .stale (examine s.engine s.scan.frame l row col (s.port l).stream).discarded _ hstream
  rwa [countOn, modPort_modPort] at hcount

theorem postureWaits (l : Link) {s : State} (h : P s) : P (postureWaitDone l s) := by
  unfold postureWaitDone
  split
  · next hslot => exact hP.finishesWait l _ _ _ s hslot rfl h
  · exact h

theorem framesWait (l : Link) {s : State} (h : P s) : P (frameWait l s) := by
  unfold frameWait
  split
  · next hslot =>
    split
    · exact hP.finishesWait l _ _ _ s hslot rfl h
    · next hn => exact hP.countsDown l _ _ s hslot (Nat.lt_of_not_le hn) h
  · exact h

end PortOpsKeep

/-- A port has room for the response of a command taken, its running command ended or not. -/
abbrev Room (p : Port) : Prop := p.responses.length ≤ 8 ∧ (p.slot ≠ none → p.responses.length < 8)

theorem room_handed {p : Port} (h : Room p) (n : Notice) : Room (handed n p) := by
  obtain ⟨-, -, -, hslot, -, -, -, hresponses⟩ := handed_fields n p
  rwa [Room, hslot, hresponses]

theorem room_finish {l m : Link} {s : State} (h : Room (s.port l)) (st : Status) (r : Results) :
    Room ((finish m st r s).port l) := by
  by_cases hm : m = l
  · subst hm
    rw [finish_port]
    split
    · exact h
    · next hslot => exact ⟨by simpa using h.2 (by simp [hslot]), by simp⟩
  · rwa [(finish_sameBut m st r s).port l (by simpa using Ne.symm hm)]

theorem room_emptySlot {l m : Link} {s : State} (h : Room (s.port l)) : Room ((emptySlot m s).port l) := by
  by_cases hm : m = l
  · subst hm
    exact (emptySlot_port m s).symm ▸ ⟨h.1, by simp⟩
  · rwa [(emptySlot_sameBut m s).port l (by simpa using Ne.symm hm)]

theorem room_withdraw {l : Link} {s : State} (h : Room (s.port l)) (reason : WithdrawReason) (quiet : Bool) :
    Room ((withdraw reason quiet s).port l) := by
  unfold withdraw
  split
  · exact h
  · next p _ =>
    have hnotified : Room ((notifyBoth (.withdrawn p.epoch p.slot reason)
        { s with engine := withdrawnEngine s.engine }).port l) := by
      rw [notifyBoth_port]
      exact room_handed h _
    dsimp only
    split
    · exact hnotified
    · split
      · exact room_emptySlot hnotified
      · exact room_finish hnotified _ _

theorem room_abortRunning {l : Link} {s : State} (h : Room (s.port l)) (m : Link) (quiet : Bool) :
    Room ((abortRunning m quiet s).port l) := by
  unfold abortRunning
  split
  · exact h
  · exact room_withdraw h _ _
  · split
    · exact room_emptySlot h
    · exact room_finish h _ _

theorem room_of_takesCommand {l : Link} {s : State} (h : TakesCommand l s) : Room (s.port l) := ⟨h.2.le, fun _ => h.2⟩

/-- A request that is refused changes nothing. -/
theorem steadyRequest_refused {n : SlotNo} {cause : Cause} {who : Option Link} {s u : State} {r : RequestResult}
    (h : steadyRequest n cause who s = (u, r)) (hr : r ≠ .announced) : u = s := by
  unfold steadyRequest at h
  split at h
  · exact (congrArg Prod.fst h).symm
  · dsimp only at h
    split at h
    · exact (congrArg Prod.fst h).symm
    · exact absurd (congrArg Prod.snd h).symm hr

theorem endReset_withTouch_sameBut (cutoff ready : Bool) (s : State) :
    SameBut [.posture, .scan, .cutoffInput, .phase, .outputs, .queue]
      { s with touch := { s.touch with reading := ready } } (endReset cutoff ready s) := by
  intro p hp
  cases p <;> first | rfl | exact absurd (by simp) hp

theorem announce_port (n : SlotNo) (cause : Cause) (who : Option Link) (layout : Layout)
    (placed : List (Region × Option Buffers)) (s : State) (l : Link) :
    (announce n cause who layout placed s).port l =
      handed (announceNotice (pendingFor n cause who layout s) l s) (s.port l) := by
  cases l
  · exact (notify_port_other .b _ _).trans (notify_port .a _ _)
  · exact (notify_port .b _ _).trans (congrArg (handed _) (notify_port_other .a _ _))

theorem steadyRequest_responses (n : SlotNo) (cause : Cause) (who : Option Link) (s : State) (l : Link) :
    ((steadyRequest n cause who s).1.port l).responses = (s.port l).responses
      ∧ ((steadyRequest n cause who s).1.port l).slot = (s.port l).slot := by
  unfold steadyRequest
  split
  · exact ⟨rfl, rfl⟩
  · dsimp only
    split
    · exact ⟨rfl, rfl⟩
    · rw [announce_port]
      obtain ⟨-, -, -, hslot, -, -, -, hresponses⟩ := handed_fields
        (announceNotice (pendingFor n cause who (s.slots.slots.get n) s) l s) (s.port l)
      exact ⟨hresponses, hslot⟩

/-- Follow evaluation leaves a port with no running command the responses it held. -/
theorem followEvaluation_room {l : Link} {s : State} (cause : Cause) (hslot : (s.port l).slot = none) :
    ((followEvaluation cause s).1.port l).responses = (s.port l).responses := by
  have hwithdrawn : ((withdraw .superseded false s).port l).responses = (s.port l).responses := by
    unfold withdraw
    split
    · rfl
    · next p _ =>
      have hnotified := notifyBoth_port (.withdrawn p.epoch p.slot .superseded)
        { s with engine := withdrawnEngine s.engine } l
      obtain ⟨-, -, -, hslot', -, -, -, hresponses⟩ := handed_fields (.withdrawn p.epoch p.slot .superseded) (s.port l)
      dsimp only
      split
      · rw [hnotified]; exact hresponses
      · next m _ =>
        by_cases hm : m = l
        · subst hm
          rw [if_neg (by simp), finish_port, hnotified]
          simp only [State.port] at hslot hslot' hresponses ⊢
          rw [hslot', hslot]
          exact hresponses
        · rw [if_neg (by simp), (finish_sameBut m _ _ _).port l (by simpa using Ne.symm hm), hnotified]
          exact hresponses
  unfold followEvaluation
  split
  · rfl
  · rfl
  · split
    · rfl
    · next n _ _ =>
      have hfollow : ((followRequest n cause s).1.port l).responses = (s.port l).responses := by
        unfold followRequest
        split
        · exact (steadyRequest_responses ..).1
        · dsimp only
          split
          · exact hwithdrawn
          · exact (steadyRequest_responses ..).1.trans hwithdrawn
      dsimp only
      rw [apply_ite Prod.fst]
      split <;> exact hfollow

theorem evaluateAndTell_room {l : Link} {s : State} (hs : SlotFree l s) {cause : Cause} {reason : PostureReason}
    {f : PostureMonitor → PostureMonitor} :
    ((evaluateAndTell cause reason (modPosture f s)).1.port l).responses.length < 8 := by
  have h := followEvaluation_room cause (s := modPosture f s) (l := l) hs.2
  obtain ⟨-, -, -, -, -, -, -, hresponses⟩ := handed_fields
    (postureNotice reason (followEvaluation cause (modPosture f s)).2 (followEvaluation cause (modPosture f s)).1)
    ((followEvaluation cause (modPosture f s)).1.port l)
  rw [evaluateAndTell, notifyBoth_port, hresponses, h]
  exact hs.1.2

section
variable {P : State → Prop} (hp : PortOpsKeep P) (hb : BlockOpsKeep P)

namespace BlockOpsKeep
include hb

theorem postures (f : PostureMonitor → PostureMonitor) {s : State} (h : P s) : P (modPosture f s) :=
  hb.frames _ _ ((modPosture_sameBut f s).mono (by simp)) h

theorem scans (x : Scan) {s : State} (h : P s) : P { s with scan := x } :=
  hb.frames _ _ ((withScan_sameBut x s).mono (by simp)) h

theorem drives (x : Outputs) {s : State} (h : P s) : P { s with outputs := x } :=
  hb.frames _ _ ((withOutputs_sameBut x s).mono (by simp)) h

theorem levels (x : Bool) {s : State} (h : P s) : P { s with cutoffInput := x } :=
  hb.frames _ _ ((withCutoffInput_sameBut x s).mono (by simp)) h

/-- The engine's part of a frame start (R58). -/
theorem enginesFrame {s : State} (h : P s) : P (engineFrame s) := by
  unfold engineFrame
  split
  · exact h
  · next p hpend =>
    split_ifs
    · exact hb.switches _ s h
    · exact hb.switches _ s h
    · exact hb.windows _ p s hpend (by omega) (by omega) h

/-- A follow request is made where the desired slot is not the current target (R42, R63). -/
theorem follows (n : SlotNo) (cause : Cause) {s : State} (htarget : currentTarget s.engine ≠ some n) (h : P s) :
    P (followRequest n cause s).1 := by
  unfold followRequest
  split
  · next hpend => exact hb.requests n cause s hpend (by simpa [currentTarget, hpend] using htarget) h
  · next p hpend =>
    have hsteady : (withdraw .superseded false s).engine.pending = none := by
      simp [withdraw_engine, hpend, withdrawnEngine]
    dsimp only
    split
    · exact hb.withdraws _ _ s h
    · next hactive => exact hb.requests n cause _ hsteady hactive (hb.withdraws _ _ s h)

theorem evaluates (cause : Cause) {s : State} (h : P s) : P (followEvaluation cause s).1 := by
  unfold followEvaluation
  split
  · exact h
  · exact h
  · next n _ =>
    split
    · exact h
    · next htarget =>
      have hfollowed := hb.follows n cause htarget h
      dsimp only
      rw [apply_ite Prod.fst]
      split
      · exact hb.postures (fun m => { m with stalled := true }) hfollowed
      · exact hfollowed

theorem appliesEntries (es : List CheckedEntry) {s : State} (h : P s) : P (applyEntries es s) := by
  induction es generalizing s with
  | nil => exact h
  | cons e es ih => exact ih (hb.entries e.id e.kind e.tx e.ty s h)

theorem reports (count : Byte) (entries : List TouchEntry) {s : State} (h : P s) : P (takeReport count entries s) := by
  unfold takeReport
  split
  · exact hb.touches _ s rfl h
  · exact hb.appliesEntries _ h

end BlockOpsKeep

include hp hb

theorem abortRunning_keeps (l : Link) (quiet : Bool) {s : State} (h : P s) : P (abortRunning l quiet s) := by
  unfold abortRunning
  split
  · exact h
  · exact hb.withdraws _ _ s h
  · next r hother hslot =>
    have hwait : r.isWait = true := by
      cases r with
      | switch tag => exact (hother tag rfl).elim
      | _ => rfl
    split
    · exact hp.emptiesWait l r s hslot hwait h
    · exact hp.finishesWait l _ _ r s hslot hwait h

theorem abortArmed_keeps (c : ArmCondition) (l : Link) {s : State} (h : P s) : P (abortArmed c l s) := by
  unfold abortArmed
  split
  · exact h
  · split
    · exact abortRunning_keeps hp hb l _ h
    · exact h

theorem evaluateAndTell_keeps (cause : Cause) (reason : PostureReason) {s : State} (h : P s) :
    P (evaluateAndTell cause reason s).1 := hp.notifiesBoth _ (hb.evaluates cause h)

theorem tellPosture_keeps (l : Link) (first : Bool) {s : State} (h : P s) : P (tellPosture l first s) := by
  unfold tellPosture
  split
  · exact hp.postureWaits l (abortArmed_keeps hp hb _ l h)
  · exact abortArmed_keeps hp hb _ l (hp.postureWaits l h)

theorem risingEdge_keeps (ticks : Nat) (order : LinkSet) {s : State} (h : P s) : P (risingEdge ticks order s) := by
  have change {u : State} (hu : P u) : P (postureChange order u) :=
    tellPosture_keeps hp hb .b _ (tellPosture_keeps hp hb .a _ (evaluateAndTell_keeps hp hb _ _ hu))
  have accept (period high : Nat) {u : State} (hu : P u) : P (acceptSample period high order u) := by
    have hseen : P (sensorSeen u) := by
      unfold sensorSeen
      dsimp only
      split
      · exact hp.notifiesBoth _ (hb.postures _ hu)
      · exact hb.postures _ hu
    unfold acceptSample
    dsimp only
    split
    · exact hb.postures _ (change (hb.postures _ (hb.postures _ hseen)))
    · exact hb.postures _ (hb.postures _ (hb.postures _ hseen))
  unfold risingEdge takeSample
  dsimp only
  split
  · exact hb.postures _ h
  · split
    · exact accept _ _ (hb.postures _ h)
    · exact hb.postures _ (hb.postures _ h)

theorem timeoutEffect_keeps {s : State} (h : P s) : P (timeoutEffect s) := by
  unfold timeoutEffect
  split
  · exact hp.notifiesBoth _ (hb.postures _ h)
  · exact h

/-! ## The scan and the frame start -/

theorem scanStreamed_keeps (l : Link) (row : Nat) {r : RuntimeRecord} {s : State} (hr : SegmentOf s.engine r)
    (hm : r.membership ≠ .pending) (ho : r.region.owner = some l) (h : P s) : P (scanStreamed l row r s).1 := by
  have hexamined := hp.examinesOn l row r.region.col0 h
  have hengine := examineOn_engine l row r.region.col0 s
  unfold scanStreamed
  split <;> next heq =>
    rw [heq] at hexamined hengine
    first
    | obtain ⟨q, hq, hregion, hmember⟩ := hengine.symm ▸ hr
      exact hb.opensGate l r q _ hq hregion hmember hm ho hexamined
    | unfold countLate
      split
      · exact hp.counts l _ _ _ hexamined
      · exact hexamined

theorem scanSegments_keeps (row : Nat) {rs : List RuntimeRecord} {s : State}
    (hrs : ∀ r ∈ rs, SegmentOf s.engine r ∧ r.membership ≠ .pending) (h : P s) : P (scanSegments row rs s).1 := by
  induction rs generalizing s with
  | nil => exact h
  | cons r rs ih =>
    obtain ⟨⟨hr, hm⟩, hrest⟩ := List.forall_mem_cons.mp hrs
    have hsegment : P (scanSegment row r s).1 := by
      unfold scanSegment
      split
      · exact h
      · next ho _ => exact scanStreamed_keeps hp hb _ row hr hm ho h
      · exact h
    exact ih (fun q hq => ⟨(hrest q hq).1.opensGates (scanSegment_opensGates row r s), (hrest q hq).2⟩) hsegment

theorem scanRow_keeps (row : Nat) {s : State} (h : P s) : P (scanRow row s) := by
  have hsegments := scanSegments_keeps hp hb row (rs := rowSegments row s.engine) (fun r hr =>
    have ⟨hmem, hm⟩ := mem_activeRecords.mp (mem_rowSegments hr)
    ⟨⟨r, hmem, rfl, rfl⟩, hm⟩) h
  have hends : P (endOfRow .b row (endOfRow .a row (scanSegments row (rowSegments row s.engine) s).1)) :=
    hp.examinesOn .b row _ (hp.examinesOn .a row _ hsegments)
  unfold scanRow
  exact hb.frames _ _ (fun p hp => by cases p <;> first | rfl | exact absurd (by simp) hp) hends

theorem finishFrame_keeps {s : State} (h : P s) : P (finishFrame s) := by
  unfold finishFrame
  generalize Config.panelRows = n
  induction n generalizing s with
  | zero => exact h
  | succ n ih =>
    unfold scanRowsLeft
    split
    · exact h
    · exact ih (scanRow_keeps hp hb _ h)

theorem scanFrame_keeps {s : State} (h : P s) : P (scanFrame s) := by
  unfold scanFrame
  dsimp only
  split
  · exact hp.notifiesBoth _ (hb.drives _ (hb.scans _ h))
  · exact hb.drives _ (hb.scans _ h)

theorem frameStart_keeps (order : LinkSet) {s : State} (h : P s) : P (frameStart order s) := by
  have first (l : Link) (b : Bool) {u : State} (hu : P u) : P (abortIfFirst l b u) := by
    unfold abortIfFirst
    split
    · exact abortArmed_keeps hp hb _ l hu
    · exact hu
  have port (l : Link) {u : State} (hu : P u) : P (portFrame l u) :=
    abortArmed_keeps hp hb _ l (hp.framesWait l (hp.countsQuiet l u hu))
  exact port .b (port .a (hb.enginesFrame (hb.flips _
    (first .b _ (first .a _ (scanFrame_keeps hp hb (finishFrame_keeps hp hb h)))))))

/-! ## The effect of each command -/

theorem sendResponse_keeps (l : Link) {s : State} (h : P s) : P (sendResponse l s) := by
  unfold sendResponse
  split
  · exact h
  · next r rs hrs => exact hb.drives _ (hp.sends l r rs s hrs h)

theorem cutoffEffect_keeps {s : State} (h : P s) : P (cutoffEffect s) := by
  have hlatched : P (modScan (fun c => { c with latch := .latched }) { s with cutoffInput := true }) :=
    hb.scans _ (hb.levels true h)
  unfold cutoffEffect
  exact hb.cancels _ (hp.notifiesBoth _ hlatched)

theorem eventEffect_keeps {i : Instr} (hi : packetLink i = none) (hbytes : isBytes i = false) {s : State} (h : P s) :
    P (eventEffect i s) := by
  have due (b : Bool) : P (if b then frameStart completionsFirst s else s) := by
    split
    · exact frameStart_keeps hp hb _ h
    · exact h
  have ended (ready : Bool) {u : State} (hu : P u) : P (if s.touch.reading then setReading ready u else s) := by
    split
    · exact hb.touches _ u rfl hu
    · exact h
  cases i
  case cutoffAssert => exact cutoffEffect_keeps hp hb h
  case hingeFall ticks => exact hb.postures (fallingEdge ticks) h
  case hingeRise ticks order => exact risingEdge_keeps hp hb ticks order h
  case sensorTimeout => exact timeoutEffect_keeps hp hb h
  case frameStart => exact frameStart_keeps hp hb _ h
  case ackWindowExpiry => exact due _
  case quietDetect => exact due _
  case waitFrameDone => exact due _
  case rowScan =>
    simp only [eventEffect]
    split
    · exact h
    · exact scanRow_keeps hp hb _ h
  case touchReadStart => exact hb.touches _ s rfl h
  case touchReadTimeout ready => exact ended ready (hb.touches _ s rfl h)
  case touchReport ready => exact ended ready (hb.reports _ _ h)
  case responseSent => exact sendResponse_keeps hp hb _ h
  case badPacket => cases hbytes
  case powerOnReset | resetInput | resetEnd | protectPulse => exact h
  all_goals cases hi

theorem lineEffect_keeps (l : Link) (p : Line) {s : State} (h : P s) : P (lineEffect l p s) := by
  unfold lineEffect
  split
  · exact hp.counts l _ _ s h
  · next r hr =>
    split
    · unfold streamLine
      split
      · exact hp.counts l _ _ s h
      · split
        · exact hp.counts l _ _ s h
        · split
          · exact hp.counts l _ _ s h
          · next hdepth =>
            have hlen : (s.port l).stream.length < 48 := Nat.lt_of_not_le hdepth
            exact hp.streams l ((s.port l).stream ++ [p]) s (.inl (by simp; omega)) h
    · next hstored =>
      split
      · exact hp.counts l _ _ s h
      · next ho => exact hb.stores l r p s ⟨⟨_, _, hr⟩, by simpa using ho⟩ hstored h

omit hb in
theorem markEffect_keeps (l : Link) (region : Byte) (epoch : Word) {effect : RuntimeRecord → State → State} {s : State}
    (h : P s) (heffect : ∀ r, FindsRecord l r s → isDouble r = true → P (effect r s)) :
    P (markEffect l region epoch effect s) := by
  unfold markEffect
  split
  · exact hp.counts l _ _ s h
  · next r hr =>
    split_ifs with ho hd
    · exact hp.counts l _ _ s h
    · exact hp.counts l _ _ s h
    · exact heffect r ⟨⟨_, _, hr⟩, by simpa using ho⟩ (by simpa using hd)

theorem pixelEffect_keeps {i : Instr} {l : Link} (hi : pixelLink i = some l) {s : State} (h : P s) :
    P (pixelEffect i s) := by
  cases i <;> cases hi
  case line.refl => exact lineEffect_keeps hp hb l _ h
  case beginMark.refl => exact markEffect_keeps hp l _ _ h (fun r hr hd => hb.begins l r s hr hd h)
  case endMark.refl =>
    refine markEffect_keeps hp l _ _ h (fun r hr hd => ?_)
    unfold endChecked
    split_ifs with hstate
    · exact hp.counts l _ _ s h
    · exact hb.ends l r s hr hd (by simpa using hstate) h

theorem abortEffect_keeps (l : Link) (tag condition quiet : Byte) {s : State} (hs : TakesCommand l s) (h : P s) :
    P (abortEffect l tag condition quiet s) := by
  unfold abortEffect
  split
  · exact hp.answers hs.2 _ _ _ _ h
  · split
    · exact hp.answers hs.2 _ _ _ _ h
    · next hslot =>
      split
      · obtain ⟨hroom, hroom'⟩ := room_abortRunning (room_of_takesCommand hs) l (decide (quiet ≠ 0))
        exact hp.responds l _ _ _ _ _ hroom hroom' (abortRunning_keeps hp hb l _ h)
      · exact hp.answers (by simpa using hs.2) _ _ _ _ (hp.arms l _ s (by simp [hslot]) h)

theorem immediateEffect_keeps {i : Instr} {l : Link} (hi : immediateLink i = some l) {s : State}
    (hs : TakesCommand l s) (h : P s) : P (immediateEffect i s) := by
  cases i <;> cases hi
  case unknownCommand.refl => exact hp.responds l _ _ _ _ s hs.2.le (fun _ => hs.2) h
  case ackEpoch.refl =>
    simp only [immediateEffect, ackEpochEffect]
    split
    · exact hp.answers hs.2 _ _ _ _ h
    · next p hpend =>
      split
      · exact hp.answers (s := { s with engine := { s.engine with pending := some (acknowledge l p) } }) hs.2 _ _ _ _
          (hb.acks l p s hpend h)
      · exact hp.answers hs.2 _ _ _ _ h
  case abort.refl => exact abortEffect_keeps hp hb l _ _ _ hs h
  case status.refl => exact hp.answers (by simpa using hs.2) _ _ _ _ (hp.clearsCounters l s h)
  case fetch.refl => exact hp.answers (by simpa using hs.2) _ _ _ _ (hp.fetches l _ s h)

theorem portResetEffect_keeps (l : Link) (tag : Byte) {s : State} (hs : TakesCommand l s) (h : P s) :
    P (portResetEffect l tag s) := by
  have hreset := hb.resetsPort l s hs h
  have hport : (portResetEffects l s).port l = resetPort (s.port l) := by simp [portResetEffects, State.port]
  unfold portResetEffect
  dsimp only
  split
  · refine hp.answers ?_ _ _ _ _ (hp.notifies l _ _ hreset)
    obtain ⟨-, -, -, -, -, -, -, hresponses⟩ := handed_fields (currentNotice l (portResetEffects l s))
      ((portResetEffects l s).port l)
    rw [notify_port, hresponses, hport]
    exact hs.2
  · exact hp.answers (by rw [hport]; exact hs.2) _ _ _ _ hreset

theorem stageCommitEffect_keeps (l : Link) (tag : Byte) {s : State} (hs : SlotFree l s) (h : P s) :
    P (stageCommitEffect l tag s) := by
  have refused (st : Status) (r : Results) : P (answer l tag .stageCommit st r s) := hp.answers hs.1.2 _ _ _ _ h
  unfold stageCommitEffect
  split
  · exact refused _ _
  · next st hst =>
    split
    · exact refused _ _
    · split
      · exact refused _ _
      · next hunused =>
        split
        · exact refused _ _
        · next hapart =>
          split
          · exact refused _ _
          · next hdistinct =>
            split
            · exact refused _ _
            · next hneed =>
              have hcommitted := hb.commits l st s hst (by simpa using hunused) hapart hdistinct
                (Nat.le_of_not_lt hneed) h
              exact hp.answers (by simpa using hs.1.2) _ _ _ _ hcommitted

theorem switchEffect_keeps (l : Link) (tag slot : Byte) {s : State} (hs : SlotFree l s) (h : P s) :
    P (switchEffect l tag slot s) := by
  have refused (st : Status) (r : Results) : P (answer l tag .switch st r s) := hp.answers hs.1.2 _ _ _ _ h
  unfold switchEffect
  split
  · exact refused _ _
  · next n _ =>
    split
    · exact refused _ _
    · next hpend =>
      have hsteady : s.engine.pending = none := by simpa using hpend
      split
      · exact refused _ _
      · next hactive =>
        split
        · next u heq => exact hb.holdsSwitch l tag n u s hs hsteady hactive heq h
        · next u need heq =>
          rw [steadyRequest_refused heq (by simp)]
          exact refused _ _
        · next u heq =>
          rw [steadyRequest_refused heq (by simp)]
          exact refused _ _

omit hp hb in
theorem waitOf_isWait {tag event n : Byte} {r : Running} (h : waitOf tag event n = some r) :
    r.isWait = true ∧ waitOk (some r) = true := by
  unfold waitOf at h
  split_ifs at h with _ hn <;> obtain rfl := Option.some.inj h
  · exact ⟨rfl, by simpa [waitOk, hn] using Nat.le_of_lt_succ n.isLt⟩
  · exact ⟨rfl, rfl⟩
  · exact ⟨rfl, rfl⟩

theorem slotEffect_keeps {i : Instr} {l : Link} {tag : Byte} {c : Command} (hi : slotUser i = some (l, tag, c))
    {s : State} (hs : SlotFree l s) (hquiet : (s.port l).quiet = 0) (h : P s) : P (slotEffect i s) := by
  have ans {u : State} (name : Command) (st : Status) (r : Results) (hu : P u)
      (hport : u.port l = s.port l) : P (answer l tag name st r u) :=
    hp.answers (by rw [hport]; exact hs.1.2) _ _ _ _ hu
  cases i <;> cases hi <;> simp only [slotEffect]
  case stageOpen.refl =>
    unfold stageOpenEffect
    split
    · exact ans _ _ _ h rfl
    · split_ifs
      · exact ans _ _ _ h rfl
      · exact ans _ _ _ h rfl
      · exact ans _ _ _ (hb.opensStaging l _ _ s h) rfl
  case stageRegion.refl =>
    unfold stageRegionEffect
    split
    · exact ans _ _ _ h rfl
    · next st hst =>
      split
      · exact ans _ _ _ h rfl
      · next r hr =>
        split
        · exact ans _ _ _ h rfl
        · next hroom => exact ans _ _ _ (hb.stages l st _ r s hst hr (Nat.lt_of_not_le hroom) h) rfl
  case stageCommit.refl => exact stageCommitEffect_keeps hp hb l _ hs h
  case stageDrop.refl =>
    unfold stageDropEffect
    split
    · exact ans _ _ _ h rfl
    · exact ans _ _ _ (hb.closesStaging l s h) rfl
  case slotRead.refl =>
    unfold slotReadEffect
    split <;> exact ans _ _ _ h rfl
  case slotsOpen.refl =>
    unfold slotsOpenEffect
    split
    · exact ans _ _ _ h rfl
    · split
      · split
        · next hle => exact ans _ _ _ (hb.setsRange _ _ _ s hle h) rfl
        · exact ans _ _ _ h rfl
      · exact ans _ _ _ h rfl
  case slotsClose.refl =>
    unfold slotsCloseEffect
    split
    · exact ans _ _ _ h rfl
    · exact ans _ _ _ (hb.setsRange 0 7 true s (by decide) h) rfl
  case slotsFreeze.refl =>
    unfold slotsFreezeEffect
    split
    · exact ans _ _ _ h rfl
    · exact ans _ _ _ (hb.setsFreeze true s h) rfl
  case setHinge.refl =>
    unfold setHingeEffect
    split
    · exact ans _ _ _ h rfl
    · exact ans _ _ _ (hb.postures _ h) rfl
  case setFace.refl =>
    unfold setFaceEffect
    split
    · exact ans _ _ _ h rfl
    · exact hp.answers (evaluateAndTell_room hs) _ _ _ _ (evaluateAndTell_keeps hp hb _ _ (hb.postures _ h))
  case bind.refl =>
    unfold bindEffect
    split
    · exact ans _ _ _ h rfl
    · split
      · exact ans _ _ _ h rfl
      · split
        · exact ans _ _ _ h rfl
        · exact hp.answers (evaluateAndTell_room hs) _ _ _ _ (evaluateAndTell_keeps hp hb _ _ (hb.postures _ h))
  case postureRead.refl => exact ans _ _ _ h rfl
  case hingeSnapshot.refl =>
    unfold hingeSnapshotEffect
    split
    · exact ans _ _ _ h rfl
    · exact ans _ _ _ (hb.postures _ h) rfl
  case switch.refl => exact switchEffect_keeps hp hb l _ _ hs h
  case setAckWindow.refl =>
    unfold setAckWindowEffect
    split
    · next hn => exact ans _ _ _ (hb.setsAckWindow _ s hn.1 hn.2 h) rfl
    · exact ans _ _ _ h rfl
  case regionClear.refl =>
    unfold regionClearEffect
    split
    · dsimp only
      split_ifs
      · exact ans _ _ _ h rfl
      · exact ans _ _ _ h rfl
      · exact ans _ _ _ h rfl
      · exact ans _ _ _ (hb.clears l _ _ s h) rfl
    · exact ans _ _ _ h rfl
  case regionStatus.refl =>
    unfold regionStatusEffect
    split
    · exact ans _ _ _ h rfl
    · dsimp only
      split <;> exact ans _ _ _ h rfl
  case setRate.refl =>
    unfold setRateEffect
    split
    · exact ans _ _ _ h rfl
    · exact ans _ _ _ (hb.scans _ h) rfl
  case resume.refl =>
    unfold resumeEffect
    split_ifs
    · exact ans _ _ _ h rfl
    · exact ans _ _ _ h rfl
    · exact ans _ _ _ (hb.scans _ h) rfl
  case setTouchCal.refl =>
    unfold setTouchCalEffect
    dsimp only
    split
    · exact ans _ _ _ h rfl
    · exact ans _ _ _ (hb.touches _ s rfl h) rfl
  case setQuiet.refl n =>
    unfold setQuietEffect
    split
    · next hn =>
      exact hp.answers (by simpa using hs.1.2) _ _ _ _
        (hp.setsQuiet l _ s hn (Nat.le_of_lt_succ n.isLt) hquiet h)
    · exact ans _ _ _ h rfl
  case wait.refl =>
    unfold waitEffect
    split
    · exact ans _ _ _ h rfl
    · next r hr =>
      obtain ⟨hwait, hok⟩ := waitOf_isWait hr
      exact hp.startsWait l r s hs hwait hok h

/-- What the operations keep, every step keeps. -/
theorem stepKeeps_of_ops : StepKeeps P where
  packets := {
    arrives := fun l s h => hp.arrives l h
    counts := fun l k s h => hp.counts l k 1 s h
    responds := fun l tag code st r s h hroom => hp.responds l tag code st r s hroom.le (fun _ => hroom) h
    levels := fun level s h => hb.levels level h
    slotEffects := fun i l tag c s hi hs hquiet h => slotEffect_keeps hp hb hi hs hquiet h
    immediateEffects := fun i l s hi hs h => immediateEffect_keeps hp hb hi hs h
    pixelEffects := fun i l s hi h => pixelEffect_keeps hp hb hi h
    portResets := fun l tag s hs h => portResetEffect_keeps hp hb l tag hs h }
  events i s hi hbytes _ h := eventEffect_keeps hp hb hi hbytes h
  powersOn := hb.powersOn
  resets := hb.resets
  endsReset cutoff ready s h := by
    have htouch := hb.touches { s.touch with reading := ready } s rfl h
    exact hb.frames _ (endReset cutoff ready s) (endReset_withTouch_sameBut cutoff ready s) htouch
  protects s h := hb.setsFreeze false _ (hb.setsRange 0 7 true s (by decide) h)
  queues q s h := hb.frames s _ (fun p hp => by cases p <;> first | rfl | exact absurd (by simp) hp) h

end

end Sys2Proof.Machine
end

section
/-! PROOFS. The laws of the ports and their queues (chapters 7 and 8): what each operation on a port keeps of them, and
that every step keeps them. -/

namespace Sys2Proof.Machine

/-- The laws of every port. -/
abbrev AllPortsOk (s : State) : Prop := ∀ l, PortOk (s.port l)

theorem allPortsOk_iff (s : State) : AllPortsOk s ↔ PortsOk s :=
  ⟨fun h => ⟨h .a, h .b⟩, fun ⟨ha, hb⟩ l => by cases l; exacts [ha, hb]⟩

theorem AllPortsOk.modPort {s : State} (h : AllPortsOk s) {l : Link} {f : Port → Port}
    (hf : PortOk (s.port l) → PortOk (f (s.port l))) : AllPortsOk (s.modPort l f) := by
  intro m
  by_cases hm : m = l
  · subst hm
    rw [port_modPort]
    exact hf (h m)
  · rw [port_modPort_ne s l f hm]
    exact h m

/-! ## Notices -/

theorem length_dropOldestMove {q q' : List Notice} (h : dropOldestMove q = some q') :
    q'.length + 1 = q.length ∧ moveCount q' + 1 = moveCount q := by
  induction q generalizing q' with
  | nil => cases h
  | cons n q ih =>
    unfold dropOldestMove at h
    split at h
    · next hn =>
      obtain rfl := Option.some.inj h
      simp [moveCount, hn]
    · next hn =>
      obtain ⟨r, hr, rfl⟩ := Option.map_eq_some_iff.mp h
      have := ih hr
      simp_all [moveCount]

theorem moveCount_append_one (q : List Notice) (n : Notice) :
    moveCount (q ++ [n]) = moveCount q + if n.isMove then 1 else 0 := by
  simp [moveCount, List.countP_cons]

/-- A coalesced queue keeps its length, and a MOVE put for a MOVE its count of them. -/
theorem length_coalesce {c : TouchId} {n : Notice} {q q' : List Notice} (h : coalesce c n q = some q') :
    q'.length = q.length ∧ moveCount q' ≤ moveCount q := by
  obtain ⟨before, m, after, rfl, hm, -, -, rfl⟩ := exists_move_of_coalesce_eq_some h
  refine ⟨by simp, ?_⟩
  simp only [moveCount, List.countP_append, List.countP_cons, hm, if_true]
  split <;> omega

/-- What placing a notice keeps of a queue's bounds (R160, R161). -/
theorem placeNotice_bounds (n : Notice) {p : Port} (hlen : p.notices.length ≤ 32) (hmoves : moveCount p.notices ≤ 24) :
    (placeNotice n p).notices.length ≤ 32 ∧ moveCount (placeNotice n p).notices ≤ 24 := by
  by_cases hn : ∃ c tag u v epoch, n = .touch .move c tag u v epoch
  · obtain ⟨c, tag, u, v, epoch, rfl⟩ := hn
    change (placeMove c _ p).notices.length ≤ 32 ∧ moveCount (placeMove c _ p).notices ≤ 24
    cases hc : coalesce c (.touch .move c tag u v epoch) p.notices with
    | some q =>
      have := length_coalesce hc
      rw [placeMove_of_coalesce hc]
      dsimp only
      omega
    | none =>
      by_cases hroom : p.notices.countP Notice.isMove < 24 ∧ p.notices.length < 32
      · rw [placeMove_of_room hc hroom.1 hroom.2]
        have hcount := moveCount_append_one p.notices (.touch .move c tag u v epoch)
        simp only [Notice.isMove, if_true] at hcount
        have : moveCount p.notices < 24 := hroom.1
        simp only [hcount, List.length_append, List.length_singleton]
        omega
      · rw [placeMove_of_noRoom hc (by omega)]
        exact ⟨hlen, hmoves⟩
  · have hkeep : n.isMove = false := by
      unfold Notice.isMove
      split
      · next c tag u v epoch => exact absurd ⟨c, tag, u, v, epoch, rfl⟩ hn
      · rfl
    rw [placeNotice_of_mustKeep hkeep]
    by_cases hroom : p.notices.length < 32
    · rw [placeKeep_of_room hroom]
      have hcount := moveCount_append_one p.notices n
      simp only [hkeep] at hcount
      simp only [hcount, List.length_append, List.length_singleton, Bool.false_eq_true, if_false]
      omega
    · cases hdrop : dropOldestMove p.notices with
      | none =>
        rw [placeKeep_of_noDrop (by omega) hdrop]
        exact ⟨hlen, hmoves⟩
      | some q =>
        rw [placeKeep_of_drop (by omega) hdrop]
        have hcount := moveCount_append_one q n
        have hdropped := length_dropOldestMove hdrop
        simp only [hkeep, Bool.false_eq_true, if_false] at hcount
        simp only [Port.count_notices, hcount, List.length_append, List.length_singleton]
        omega

theorem handed_portOk (n : Notice) {p : Port} (h : PortOk p) : PortOk (handed n p) := by
  obtain ⟨hdepth, hup, hdown, hlen, hmoves, hoff, hresponses, hroom, harmed, hfrom, hto, hquiet, honline, hwait⟩ := h
  by_cases hstate : p.state = .offline
  · rw [handed_of_offline hstate]
    exact ⟨hdepth, hup, hdown, hlen, hmoves, hoff, hresponses, hroom, harmed, hfrom, hto, hquiet, honline, hwait⟩
  · obtain ⟨hlen', hmoves'⟩ := placeNotice_bounds n hlen hmoves
    rw [handed_of_not_offline hstate, placeNotice_port]
    exact ⟨hdepth, hup, hdown, hlen', hmoves', fun hs => absurd hs hstate, hresponses, hroom, harmed, hfrom, hto,
      hquiet, honline, hwait⟩

theorem handedAll_portOk (ns : List Notice) {p : Port} (h : PortOk p) : PortOk (handedAll ns p) := by
  induction ns generalizing p with
  | nil => exact h
  | cons n ns ih => exact ih (handed_portOk n h)

/-! ## The command slot and the responses -/

theorem portOk_emptied {p : Port} (h : PortOk p) : PortOk { p with slot := none, armed := none } := by
  obtain ⟨hdepth, hup, hdown, hlen, hmoves, hoff, hresponses, -, -, hfrom, hto, hquiet, honline, -⟩ := h
  exact ⟨hdepth, hup, hdown, hlen, hmoves, hoff, hresponses, fun hs => absurd rfl hs, fun hs => absurd rfl hs, hfrom,
    hto, hquiet, honline, rfl⟩

theorem portOk_responded {p : Port} (h : PortOk p) (hroom : Room p) (r : Response) :
    PortOk { p with responses := p.responses ++ [r] } := by
  obtain ⟨hdepth, hup, hdown, hlen, hmoves, hoff, -, -, harmed, hfrom, hto, hquiet, honline, hwait⟩ := h
  exact ⟨hdepth, hup, hdown, hlen, hmoves, hoff, by simpa using Nat.lt_succ_of_le hroom.1,
    fun hs => by simpa using hroom.2 hs, harmed,
    hfrom, hto, hquiet, honline, hwait⟩

theorem portOk_finished {p : Port} (h : PortOk p) (hslot : p.slot ≠ none) (r : Response) :
    PortOk { p with slot := none, armed := none, responses := p.responses ++ [r] } := by
  have hroom : p.responses.length ≤ 8 := by
    obtain ⟨-, -, -, -, -, -, -, hroom, -⟩ := h
    exact hroom hslot
  exact portOk_responded (portOk_emptied h) ⟨hroom, fun hs => absurd rfl hs⟩ r

/-- A slot that held no command, or one of the same kind, takes one. -/
theorem portOk_holds {p : Port} (h : PortOk p) (hroom : p.responses.length ≤ 8) {r : Running}
    (hr : waitOk (some r) = true) : PortOk { p with slot := some r } := by
  obtain ⟨hdepth, hup, hdown, hlen, hmoves, hoff, hresponses, -, -, hfrom, hto, hquiet, honline, -⟩ := h
  exact ⟨hdepth, hup, hdown, hlen, hmoves, hoff, hresponses, fun _ => hroom, fun _ => by simp, hfrom, hto, hquiet,
    honline, hr⟩

theorem AllPortsOk.finish {s : State} (h : AllPortsOk s) (l : Link) (st : Status) (r : Results) :
    AllPortsOk (finish l st r s) := by
  intro m
  by_cases hm : m = l
  · subst hm
    rw [finish_port]
    split
    · exact h m
    · next hslot => exact portOk_finished (h m) (by simp [hslot]) _
  · rw [(finish_sameBut l st r s).port m (by simpa using hm)]
    exact h m

theorem AllPortsOk.emptySlot {s : State} (h : AllPortsOk s) (l : Link) : AllPortsOk (emptySlot l s) :=
  h.modPort portOk_emptied

theorem AllPortsOk.notify {s : State} (h : AllPortsOk s) (l : Link) (n : Notice) : AllPortsOk (notify l n s) :=
  h.modPort (handed_portOk n)

theorem AllPortsOk.notifyBoth {s : State} (h : AllPortsOk s) (n : Notice) : AllPortsOk (notifyBoth n s) :=
  (h.notify .a n).notify .b n

/-! ## The stream queue (R150) -/

theorem portOk_setStream {p : Port} (h : PortOk p) {q : List Line} (hq : q.length ≤ 48) : PortOk (p.setStream q) := by
  obtain ⟨-, -, -, hlen, hmoves, hoff, hresponses, hroom, harmed, hfrom, hto, hquiet, honline, hwait⟩ := h
  refine ⟨hq, fun hup => if_pos hup, fun hdown => ?_, hlen, hmoves, hoff, hresponses, hroom, harmed, hfrom, hto, hquiet,
    honline, hwait⟩
  have hdepth : q.length ≤ 32 := hdown
  exact (if_neg (show ¬ Config.holdAssert ≤ q.length by simp [Config.holdAssert]; omega)).trans (if_pos hdepth)

/-! ## Quiet counting (R148) -/

theorem portOk_countQuiet {p : Port} (h : PortOk p) : PortOk (countQuiet p) := by
  obtain ⟨hdepth, hup, hdown, hlen, hmoves, hoff, hresponses, hroom, harmed, hfrom, hto, hquiet, honline, hwait⟩ := h
  unfold countQuiet
  split
  · next hstate =>
    have hbelow := honline hstate
    refine ⟨hdepth, hup, hdown, hlen, hmoves, fun hs => ?_, hresponses, hroom, harmed, hfrom, hto, hbelow, fun hs => ?_,
      hwait⟩
    · dsimp only at hs
      split at hs <;> cases hs
    · dsimp only at hs ⊢
      split at hs
      · cases hs
      · omega
  · exact ⟨hdepth, hup, hdown, hlen, hmoves, hoff, hresponses, hroom, harmed, hfrom, hto, hquiet, honline, hwait⟩

theorem portOk_fresh {n : Nat} (hfrom : 1 ≤ n) (hto : n ≤ 255) : PortOk (Port.fresh n) :=
  ⟨by simp [Port.fresh], by simp [Port.fresh], by simp [Port.fresh], by simp [Port.fresh],
    by simp [Port.fresh, moveCount], by simp [Port.fresh], by simp [Port.fresh], by simp [Port.fresh],
    by simp [Port.fresh], hfrom, hto, by simp [Port.fresh], by simp [Port.fresh], rfl⟩

theorem portOk_reset {p : Port} (h : PortOk p) : PortOk (resetPort p) := by
  obtain ⟨-, -, -, -, -, -, hresponses, -, -, hfrom, hto, -, -, -⟩ := h
  exact ⟨by simp [resetPort], by simp [resetPort], by simp [resetPort], by simp [resetPort],
    by simp [resetPort, moveCount], by simp [resetPort], hresponses, by simp [resetPort], by simp [resetPort], hfrom,
    hto, by simp [resetPort], fun _ => hfrom, rfl⟩

/-! ## The operations of one port -/

theorem portOps_keep_portsOk : PortOpsKeep AllPortsOk where
  notifies l n s h := h.notify l n
  counts l k n s h := h.modPort id
  comesOnline l s h := h.modPort fun hp => by
    obtain ⟨hdepth, hup, hdown, hlen, hmoves, -, hresponses, hroom, harmed, hfrom, hto, -, -, hwait⟩ := hp
    exact ⟨hdepth, hup, hdown, hlen, hmoves, nofun, hresponses, hroom, harmed, hfrom, hto, Nat.zero_le _, fun _ => hfrom,
      hwait⟩
  responds l tag code st r s hroom hroom' h := h.modPort fun hp => portOk_responded hp ⟨hroom, hroom'⟩ _
  finishesWait l st res r s _ _ h := h.finish l st res
  emptiesWait l r s _ _ h := h.emptySlot l
  startsWait l r s hs _ hr h := h.modPort fun hp => portOk_holds hp hs.1.2.le hr
  countsDown l tag n s hslot hn h := h.modPort fun hp => by
    obtain ⟨-, -, -, -, -, -, -, hroom, -, -, -, -, -, hwait⟩ := id hp
    refine portOk_holds hp (hroom (by simp [hslot])) ?_
    simp only [hslot, waitOk, decide_eq_true_eq] at hwait ⊢
    omega
  arms l a s hslot h := h.modPort fun hp => by
    obtain ⟨hdepth, hup, hdown, hlen, hmoves, hoff, hresponses, hroom, -, hfrom, hto, hquiet, honline, hwait⟩ := hp
    exact ⟨hdepth, hup, hdown, hlen, hmoves, hoff, hresponses, hroom, fun _ => hslot, hfrom, hto, hquiet, honline, hwait⟩
  countsQuiet l s h := h.modPort portOk_countQuiet
  setsQuiet l n s hfrom hto hquiet h := h.modPort fun hp => by
    obtain ⟨hdepth, hup, hdown, hlen, hmoves, hoff, hresponses, hroom, harmed, -, -, -, -, hwait⟩ := hp
    exact ⟨hdepth, hup, hdown, hlen, hmoves, hoff, hresponses, hroom, harmed, hfrom, hto, by simp [hquiet],
      fun _ => hquiet.trans_lt hfrom, hwait⟩
  clearsCounters l s h := h.modPort id
  fetches l n s h := h.modPort fun hp => by
    obtain ⟨hdepth, hup, hdown, hlen, hmoves, hoff, hresponses, hroom, harmed, hfrom, hto, hquiet, honline, hwait⟩ := hp
    exact ⟨hdepth, hup, hdown, (List.drop_sublist _ _).length_le.trans hlen,
      ((List.drop_sublist _ _).countP_le).trans hmoves, fun hs => by simp [hoff hs], hresponses, hroom, harmed, hfrom,
      hto, hquiet, honline, hwait⟩
  sends l r rs s hrs h := h.modPort fun hp => by
    obtain ⟨hdepth, hup, hdown, hlen, hmoves, hoff, hresponses, hroom, harmed, hfrom, hto, hquiet, honline, hwait⟩ := hp
    rw [hrs] at hresponses hroom
    exact ⟨hdepth, hup, hdown, hlen, hmoves, hoff, (Nat.le_succ _).trans hresponses,
      fun hs => (Nat.le_succ _).trans (hroom hs), harmed, hfrom, hto, hquiet, honline, hwait⟩
  streams l q s hq h := h.modPort fun hp => portOk_setStream hp (by
    obtain ⟨hdepth, -⟩ := hp
    omega)

/-! ## The operations of the other blocks -/

/-- A stored line is counted MALFORMED, or writes the pixels and its record alone. -/
theorem storeLine_writes (l : Link) (r : RuntimeRecord) (p : Line) (s : State) :
    storeLine l r p s = countOn l .malformed 1 s
      ∨ ∃ store f, storeLine l r p s = updateRecord r f { s with store := store } := by
  unfold storeLine
  dsimp only
  split
  · exact .inl rfl
  · split
    · exact .inl rfl
    · split
      · exact .inr ⟨_, _, rfl⟩
      · split
        · exact .inl rfl
        · split
          · exact .inl rfl
          · exact .inr ⟨_, _, rfl⟩

theorem AllPortsOk.applyEntry {s : State} (h : AllPortsOk s) (c : TouchId) (k : TouchKind) (tx ty : Nat) :
    AllPortsOk (applyEntry c k tx ty s) := by
  unfold Machine.applyEntry
  dsimp only
  split
  · exact h
  · unfold startContact
    split
    · exact h
    · split
      · exact h
      · exact AllPortsOk.notify (s := setContact c _ s) h _ _
  · exact AllPortsOk.notify (s := setContact c _ s) h _ _
  · exact AllPortsOk.notify (s := setContact c _ s) h _ _
  · exact h
  · exact h

theorem AllPortsOk.cancelContacts {s : State} (h : AllPortsOk s) (reason : CancelReason) (kept : List Nat) :
    AllPortsOk (cancelContacts reason kept s) := by
  obtain ⟨-, -, -, hport⟩ := cancelContacts_spec reason kept s
  exact fun l => hport l ▸ handedAll_portOk _ (h l)

theorem AllPortsOk.withdraw {s : State} (h : AllPortsOk s) (reason : WithdrawReason) (quiet : Bool) :
    AllPortsOk (withdraw reason quiet s) := by
  unfold Machine.withdraw
  split
  · exact h
  · have hnotified (n : Notice) := AllPortsOk.notifyBoth (s := { s with engine := withdrawnEngine s.engine }) h n
    dsimp only
    split
    · exact hnotified _
    · split
      · exact (hnotified _).emptySlot _
      · exact (hnotified _).finish _ _ _

theorem AllPortsOk.steadyRequest {s : State} (h : AllPortsOk s) (n : SlotNo) (cause : Cause) (who : Option Link) :
    AllPortsOk (steadyRequest n cause who s).1 := by
  unfold Machine.steadyRequest
  split
  · exact h
  · dsimp only
    split
    · exact h
    · exact fun l => announce_port .. ▸ handed_portOk _ (h l)

theorem AllPortsOk.withPosture {s : State} (h : AllPortsOk s) (x : PostureMonitor) :
    AllPortsOk { s with posture := x } := h

theorem AllPortsOk.makeSwitch {s : State} (h : AllPortsOk s) (late : LinkSet) : AllPortsOk (makeSwitch late s) := by
  unfold Machine.makeSwitch
  split
  · exact h
  · next p _ =>
    have hcancelled := (AllPortsOk.notifyBoth (s := { s with engine := switchedEngine p s.engine }) h
      (.active p.epoch p.slot p.generation s.scan.frame late)).cancelContacts .switch (carriedTags s.engine)
    have waitDone (l : Link) (res : Results) {u : State} (hu : AllPortsOk u) : AllPortsOk (epochWaitDone l res u) := by
      unfold epochWaitDone
      split
      · exact hu.finish _ _ _
      · exact hu
    have switched (res : Results) {u : State} (hu : AllPortsOk u) : AllPortsOk (switchDone p.requester res u) := by
      unfold switchDone
      split
      · exact hu
      · exact hu.finish _ _ _
    exact waitDone .b _ (waitDone .a _ (switched _ (hcancelled.withPosture _)))

theorem blockOps_keep_portsOk : BlockOpsKeep AllPortsOk where
  frames s t hst h l := hst.port l (by simp) ▸ h l
  touches x s _ h := h
  entries c k tx ty s h := h.applyEntry c k tx ty
  cancels s h := h.cancelContacts _ _
  withdraws reason quiet s h := h.withdraw reason quiet
  requests n cause s _ _ h := h.steadyRequest n cause none
  holdsSwitch l tag n u s hs _ _ hu h := by
    have hrequest := h.steadyRequest n (.switchBy l) (some l)
    have hroom := (steadyRequest_responses n (.switchBy l) (some l) s l).1
    rw [hu] at hrequest hroom
    exact hrequest.modPort fun hp => portOk_holds hp (hroom ▸ hs.1.2.le) rfl
  switches late s h := h.makeSwitch late
  windows n p s _ _ _ h := h
  acks l p s _ h := h
  setsAckWindow n s _ _ h := h
  opensStaging l n backdrop s h := h
  stages l st record r s _ _ _ h := h
  closesStaging l s h := h
  commits l st s _ _ _ _ _ h := h
  setsRange low high outside s _ h := h
  setsFreeze f s h := h
  flips s h := h
  clears l t w s h := h
  stores l r p s _ _ h := by
    obtain heq | ⟨store, f, heq⟩ := storeLine_writes l r p s
    · exact heq ▸ h.modPort id
    · exact heq ▸ h
  begins l r s _ _ h := h
  ends l r s _ _ _ h := by
    unfold endFrame
    split <;> exact h
  opensGate l r q s _ _ _ _ _ h := h
  resetsPort l s _ h := AllPortsOk.modPort h portOk_reset
  powersOn s _ l := by cases l <;> exact portOk_fresh (by decide) (by decide)
  resets s h l := by
    obtain ⟨-, -, -, -, -, -, -, -, -, hfrom, hto, -⟩ := h l
    cases l <;> exact portOk_fresh hfrom hto

/-- Settles O55: each operation on a port keeps its laws, and no other block writes a port but through those. -/
theorem stepKeepsPortLaws : Obligations.StepKeepsPortLaws := by
  intro s t h ht
  rw [← allPortsOk_iff] at h ⊢
  exact (stepKeeps_of_ops portOps_keep_portsOk blockOps_keep_portsOk).step h ht

end Sys2Proof.Machine
end

section
/-! PROOFS. The transition engine (chapter 3): what ending a command, a withdrawal and the switch leave in each port, and
the statements about them. -/

namespace Sys2Proof.Machine

/-! ## A notice handed to a port that differs outside its queue -/

theorem placeNotice_congr (n : Notice) {p q : Port} (hn : q.notices = p.notices) (hc : q.counters = p.counters) :
    (placeNotice n q).notices = (placeNotice n p).notices ∧ (placeNotice n q).counters = (placeNotice n p).counters := by
  unfold placeNotice placeMove placeKeep
  rw [hn]
  repeat' split
  all_goals simp [Port.count, hc, hn]

/-- A notice reads of a port its queue, its counters and whether it is OFFLINE (R159). -/
theorem handed_congr (n : Notice) {p q : Port} (hs : q.state = .offline ↔ p.state = .offline)
    (hn : q.notices = p.notices) (hc : q.counters = p.counters) :
    handed n q = { q with notices := (handed n p).notices, counters := (handed n p).counters } := by
  by_cases hoff : p.state = .offline
  · rw [handed_of_offline hoff, handed_of_offline (hs.mpr hoff), ← hn, ← hc]
  · obtain ⟨hnotices, hcounters⟩ := placeNotice_congr n hn hc
    rw [handed_of_not_offline hoff, handed_of_not_offline (mt hs.mp hoff), placeNotice_port, hnotices, hcounters]

theorem handed_state_offline (n : Notice) (p : Port) : (handed n p).state = .offline ↔ p.state = .offline := by
  obtain ⟨hstate, -⟩ := handed_fields n p
  rw [hstate]

theorem handedAll_congr (ns : List Notice) {p q : Port} (hs : q.state = .offline ↔ p.state = .offline)
    (hn : q.notices = p.notices) (hc : q.counters = p.counters) :
    handedAll ns q = { q with notices := (handedAll ns p).notices, counters := (handedAll ns p).counters } := by
  induction ns generalizing p q with
  | nil => simp [← hn, ← hc]
  | cons n ns ih =>
    have hq := handed_congr n hs hn hc
    have hoff : (handed n q).state = .offline ↔ (handed n p).state = .offline := by
      rw [handed_state_offline, handed_state_offline, hs]
    rw [handedAll_cons, handedAll_cons, ih hoff (by rw [hq]) (by rw [hq]), hq]

/-! ## A port whose running command ends -/

/-- A port whose slot is emptied. -/
def Port.emptied (p : Port) : Port := { p with slot := none, armed := none }

/-- A port whose running command ends with a response. -/
def Port.ended (r : Running) (st : Status) (res : Results) (p : Port) : Port :=
  { p with
    slot := none, armed := none
    responses := p.responses ++ [{ tag := r.tag, code := r.code, status := st, results := res }] }

/-- A port whose running command ends, if it has one. -/
def Port.finished (st : Status) (res : Results) (p : Port) : Port :=
  match p.slot with
  | none => p
  | some r => p.ended r st res

theorem Port.finished_of_none {p : Port} (h : p.slot = none) (st : Status) (res : Results) :
    p.finished st res = p := by
  simp [Port.finished, h]

theorem Port.finished_of_some {p : Port} {r : Running} (h : p.slot = some r) (st : Status) (res : Results) :
    p.finished st res = p.ended r st res := by
  simp [Port.finished, h]

theorem finish_port_eq (l m : Link) (st : Status) (res : Results) (s : State) :
    (finish l st res s).port m = if l = m then (s.port m).finished st res else s.port m := by
  by_cases h : l = m
  · subst h
    rw [finish_port, if_pos rfl]
    rfl
  · rw [if_neg h, (finish_sameBut l st res s).port m (by simpa using Ne.symm h)]

theorem emptySlot_port_eq (l m : Link) (s : State) :
    (emptySlot l s).port m = if l = m then (s.port m).emptied else s.port m := by
  by_cases h : l = m
  · subst h
    rw [emptySlot_port, if_pos rfl]
    rfl
  · rw [if_neg h, (emptySlot_sameBut l s).port m (by simpa using Ne.symm h)]

theorem handed_ended (n : Notice) (r : Running) (st : Status) (res : Results) (p : Port) :
    handed n (p.ended r st res) = (handed n p).ended r st res := by
  rw [handed_congr n (p := p) (q := p.ended r st res) Iff.rfl rfl rfl]
  conv_rhs => rw [handed_port]
  rfl

/-! ## A withdrawal (R62) -/

/-- A port once a withdrawal has told it, its link's SWITCH ended when it is the requesting one. -/
def withdrawnPort (reason : WithdrawReason) (quiet : Bool) (p : Pending) (l : Link) (x : Port) : Port :=
  let told := handed (.withdrawn p.epoch p.slot reason) x
  if p.requester = some l then
    if quiet then told.emptied else told.finished (withdrawStatus reason) (.epoch p.epoch)
  else told

theorem withdraw_port {s : State} {p : Pending} (hp : s.engine.pending = some p) (reason : WithdrawReason)
    (quiet : Bool) (l : Link) :
    (withdraw reason quiet s).port l = withdrawnPort reason quiet p l (s.port l) := by
  have htold : (notifyBoth (.withdrawn p.epoch p.slot reason) { s with engine := withdrawnEngine s.engine }).port l =
      handed (.withdrawn p.epoch p.slot reason) (s.port l) := notifyBoth_port _ _ l
  simp only [withdraw, hp, withdrawnPort]
  cases hr : p.requester with
  | none => simpa using htold
  | some m =>
    cases quiet with
    | true => simp only [if_true, emptySlot_port_eq, htold, Option.some.injEq]
    | false => simp only [Bool.false_eq_true, if_false, finish_port_eq, htold, Option.some.injEq]

/-- Settles O27: the engine and each port that a withdrawal leaves. -/
theorem withdrawalEndsTransition : Obligations.WithdrawalEndsTransition := by
  intro reason quiet s p hp t
  refine ⟨withdraw_sameBut reason quiet s, ?_, fun l => ?_⟩
  · rw [withdraw_engine, if_neg (by simp [hp])]
    rfl
  · intro told
    have hport : t.port l = withdrawnPort reason quiet p l (s.port l) := withdraw_port hp reason quiet l
    obtain ⟨-, -, -, hslot, -⟩ := handed_fields (.withdrawn p.epoch p.slot reason) (s.port l)
    have hstatus : withdrawStatus reason = if reason = .superseded then .superseded else .aborted := by
      cases reason <;> rfl
    rw [hport]
    refine ⟨?_, fun hr hq => ?_, fun r hr hq hrun => ?_⟩
    · rintro (hother | ⟨hidle, rfl⟩)
      · simp [withdrawnPort, hother, told]
      · simp only [withdrawnPort, Bool.false_eq_true, if_false, Port.finished_of_none (hslot.trans hidle), ite_self]
        rfl
    · simp [withdrawnPort, hr, hq, told, Port.emptied]
    · simp only [withdrawnPort, hr, hq, if_true, Bool.false_eq_true, if_false,
        Port.finished_of_some (hslot.trans hrun), ← hstatus]
      rfl

/-! ## The switch (R59 to R61) -/

/-- A port whose WAIT for EPOCH ends at the switch. -/
def Port.epochWaited (res : Results) (p : Port) : Port :=
  match p.slot with
  | some (.waitEpoch tag) => p.ended (.waitEpoch tag) .ok res
  | _ => p

theorem epochWaitDone_port_eq (l m : Link) (res : Results) (s : State) :
    (epochWaitDone l res s).port m = if l = m then (s.port m).epochWaited res else s.port m := by
  by_cases h : l = m
  · subst h
    rw [epochWaitDone_port, if_pos rfl]
    rfl
  · rw [if_neg h, (epochWaitDone_sameBut l res s).port m (by simpa using Ne.symm h)]

/-- A port once the switch has told it. -/
def toldOfSwitch (late : LinkSet) (p : Pending) (s : State) (l : Link) : Port :=
  handedAll (.active p.epoch p.slot p.generation s.scan.frame late
    :: cancelsFor l .switch p.epoch (carriedTags s.engine) s.touch.contacts) (s.port l)

/-- The switch before any command is answered: the engine, the ACTIVE notices and the contacts (R59, R61). -/
def switchTold (late : LinkSet) (p : Pending) (s : State) : State :=
  cancelContacts .switch (carriedTags s.engine)
    (notifyBoth (.active p.epoch p.slot p.generation s.scan.frame late) { s with engine := switchedEngine p s.engine })

section
variable (late : LinkSet) (p : Pending) (s : State)

theorem switchTold_engine : (switchTold late p s).engine = switchedEngine p s.engine := by
  obtain ⟨hframe, -⟩ := cancelContacts_spec .switch (carriedTags s.engine)
    (notifyBoth (.active p.epoch p.slot p.generation s.scan.frame late) { s with engine := switchedEngine p s.engine })
  exact (hframe.engine (by simp)).trans ((notifyBoth_sameBut _ _).engine (by simp))

theorem switchTold_posture : (switchTold late p s).posture = s.posture := by
  obtain ⟨hframe, -⟩ := cancelContacts_spec .switch (carriedTags s.engine)
    (notifyBoth (.active p.epoch p.slot p.generation s.scan.frame late) { s with engine := switchedEngine p s.engine })
  exact (hframe.posture (by simp)).trans ((notifyBoth_sameBut _ _).posture (by simp))

theorem switchTold_touch :
    (switchTold late p s).touch = { s.touch with contacts := (switchTold late p s).touch.contacts }
      ∧ ∀ c, (switchTold late p s).touch.contacts.get c =
        contactAfterCancel (carriedTags s.engine) (s.touch.contacts.get c) := by
  obtain ⟨-, htouch, hcontacts, -⟩ := cancelContacts_spec .switch (carriedTags s.engine)
    (notifyBoth (.active p.epoch p.slot p.generation s.scan.frame late) { s with engine := switchedEngine p s.engine })
  have hsame := (notifyBoth_sameBut (.active p.epoch p.slot p.generation s.scan.frame late)
    { s with engine := switchedEngine p s.engine }).touch (by simp)
  rw [hsame] at htouch hcontacts
  unfold switchTold
  exact ⟨htouch, hcontacts⟩

theorem switchTold_port (l : Link) : (switchTold late p s).port l = toldOfSwitch late p s l := by
  obtain ⟨-, -, -, hports⟩ := cancelContacts_spec .switch (carriedTags s.engine)
    (notifyBoth (.active p.epoch p.slot p.generation s.scan.frame late) { s with engine := switchedEngine p s.engine })
  have hframe := notifyBoth_sameBut (.active p.epoch p.slot p.generation s.scan.frame late)
    { s with engine := switchedEngine p s.engine }
  have hport := hports l
  rw [notifyBoth_port, hframe.touch (by simp), hframe.engine (by simp)] at hport
  exact hport

end

/-- The stalled flag is cleared (R43). -/
def clearStalled (m : PostureMonitor) : PostureMonitor := { m with stalled := false }

theorem makeSwitch_of_pending {s : State} {p : Pending} (hp : s.engine.pending = some p) (late : LinkSet) :
    makeSwitch late s = epochWaitDone .b (.switched p.epoch p.slot s.scan.frame)
      (epochWaitDone .a (.switched p.epoch p.slot s.scan.frame)
        (switchDone p.requester (.switched p.epoch p.slot s.scan.frame)
          (modPosture clearStalled (switchTold late p s)))) := by
  simp only [makeSwitch, hp, switchTold, modPosture, clearStalled]

section
variable {s : State} {p : Pending} (hp : s.engine.pending = some p) (late : LinkSet)
include hp

theorem makeSwitch_told : SameBut [.port .a, .port .b] (modPosture clearStalled (switchTold late p s))
    (makeSwitch late s) := by
  rw [makeSwitch_of_pending hp]
  exact (switchDone_sameBut _ _ _).trans (((epochWaitDone_sameBut .a _ _).mono (by simp)).trans
    ((epochWaitDone_sameBut .b _ _).mono (by simp)))

theorem makeSwitch_engine : (makeSwitch late s).engine = switchedEngine p s.engine :=
  ((makeSwitch_told hp late).engine (by simp)).trans ((modPosture_engine _ _).trans (switchTold_engine late p s))

theorem makeSwitch_posture : (makeSwitch late s).posture = { s.posture with stalled := false } :=
  ((makeSwitch_told hp late).posture (by simp)).trans
    ((modPosture_posture _ _).trans (congrArg clearStalled (switchTold_posture late p s)))

theorem makeSwitch_touch :
    (makeSwitch late s).touch = { s.touch with contacts := (makeSwitch late s).touch.contacts }
      ∧ ∀ c, (makeSwitch late s).touch.contacts.get c =
        contactAfterCancel (carriedTags s.engine) (s.touch.contacts.get c) := by
  have hsame : (makeSwitch late s).touch = (switchTold late p s).touch :=
    ((makeSwitch_told hp late).touch (by simp)).trans (modPosture_touch _ _)
  rw [hsame]
  exact switchTold_touch late p s

theorem makeSwitch_port (l : Link) :
    (makeSwitch late s).port l = Port.epochWaited (.switched p.epoch p.slot s.scan.frame)
      (if p.requester = some l then
        (toldOfSwitch late p s l).finished .ok (.switched p.epoch p.slot s.scan.frame)
      else toldOfSwitch late p s l) := by
  have hswitched : (switchDone p.requester (.switched p.epoch p.slot s.scan.frame)
        (modPosture clearStalled (switchTold late p s))).port l =
      if p.requester = some l then
        (toldOfSwitch late p s l).finished .ok (.switched p.epoch p.slot s.scan.frame)
      else toldOfSwitch late p s l := by
    rw [switchDone_port, finish_port_eq, if_pos rfl, modPosture_port, switchTold_port]
  rw [makeSwitch_of_pending hp, epochWaitDone_port_eq, epochWaitDone_port_eq, hswitched]
  cases l <;> simp

end

theorem toldOfSwitch_slot (late : LinkSet) (p : Pending) (s : State) (l : Link) :
    (toldOfSwitch late p s l).slot = (s.port l).slot := by
  obtain ⟨-, -, -, hslot, -⟩ := handedAll_fields (.active p.epoch p.slot p.generation s.scan.frame late
    :: cancelsFor l .switch p.epoch (carriedTags s.engine) s.touch.contacts) (s.port l)
  exact hslot

section
variable {s : State} {p : Pending}

/-- The requesting SWITCH, or a WAIT for EPOCH, is answered at the switch. -/
theorem switchedPort_of_answered {l : Link} {r : Running} (hr : (s.port l).slot = some r)
    (hwho : p.requester = some l ∨ ∃ tag, r = .waitEpoch tag) (late : LinkSet) (res : Results) :
    Port.epochWaited res (if p.requester = some l then (toldOfSwitch late p s l).finished .ok res
      else toldOfSwitch late p s l) = (toldOfSwitch late p s l).ended r .ok res := by
  have hslot := (toldOfSwitch_slot late p s l).trans hr
  by_cases hreq : p.requester = some l
  · rw [if_pos hreq, Port.finished_of_some hslot]
    rfl
  · obtain ⟨tag, rfl⟩ := hwho.resolve_left hreq
    rw [if_neg hreq]
    simp [Port.epochWaited, hslot]

/-- Any other port keeps its running command. -/
theorem switchedPort_of_kept {l : Link} (h : (s.port l).slot = none
      ∨ (p.requester ≠ some l ∧ ∀ tag, (s.port l).slot ≠ some (.waitEpoch tag))) (late : LinkSet) (res : Results) :
    Port.epochWaited res (if p.requester = some l then (toldOfSwitch late p s l).finished .ok res
      else toldOfSwitch late p s l) = toldOfSwitch late p s l := by
  have hslot := toldOfSwitch_slot late p s l
  obtain hidle | ⟨hreq, hother⟩ := h
  · rw [Port.finished_of_none (hslot.trans hidle), ite_self]
    simp [Port.epochWaited, hslot.trans hidle]
  · rw [if_neg hreq]
    unfold Port.epochWaited
    split
    · next tag htag => exact absurd (hslot.symm.trans htag) (hother tag)
    · rfl

theorem engineFrame_of_armed (hp : s.engine.pending = some p) (ha : p.armed = true) :
    engineFrame s = makeSwitch ⟨false, false⟩ s := by
  simp [engineFrame, hp, ha]

theorem engineFrame_of_expired (hp : s.engine.pending = some p) (ha : p.armed = false) (hw : p.window ≤ 1) :
    engineFrame s = makeSwitch (lateSet p) s := by
  simp [engineFrame, hp, ha, hw]

theorem engineFrame_of_waiting (hp : s.engine.pending = some p) (ha : p.armed = false) (hw : 1 < p.window) :
    engineFrame s =
      { s with engine := { s.engine with pending := some { p with window := p.window - 1 } } } := by
  simp [engineFrame, hp, ha, Nat.not_le.mpr hw, setWindow]

theorem engineFrame_of_steady (hp : s.engine.pending = none) : engineFrame s = s := by
  simp [engineFrame, hp]

end

/-- Settles O25: the state and window decide whether the switch is made, and the lemmas above say what it does. -/
theorem switchTellsEveryBlock : Obligations.SwitchTellsEveryBlock := by
  refine fun s p hp => ⟨engineFrame_of_armed hp, engineFrame_of_expired hp, engineFrame_of_waiting hp, ?_⟩
  intro late t kept
  obtain ⟨htouch, hcontacts⟩ := makeSwitch_touch hp late
  refine ⟨makeSwitch_sameBut late s, makeSwitch_engine hp late, makeSwitch_posture hp late, htouch, hcontacts, fun l => ?_⟩
  intro told
  have hport := makeSwitch_port hp late l
  refine ⟨fun r hreq hr => ?_, fun tag _ htag => ?_, fun hkept => ?_⟩
  · exact hport.trans (switchedPort_of_answered hr (.inl hreq) late _)
  · exact hport.trans (switchedPort_of_answered htag (.inr ⟨tag, rfl⟩) late _)
  · exact hport.trans (switchedPort_of_kept hkept late _)

end Sys2Proof.Machine
end

section
/-! PROOFS. The posture monitor (chapter 2): a sample stage by stage, the sensor timeout, the hinge settings, and that
every step keeps the monitor's laws. -/

namespace Sys2Proof.Machine

/-! ## A sample, stage by stage (R26 to R35) -/

/-- The monitor once an accepted sample has been seen and recorded. -/
def seenSample (period high : Nat) (m : PostureMonitor) : PostureMonitor :=
  recordSample period high { m with sensor := .ok }

/-- The part once an accepted sample has been recorded and has gone through the dwell. -/
def afterDwell (period high : Nat) (s : State) : State :=
  modPosture (fun m => dwellStep m (candidateNow m)) (modPosture (recordSample period high) (sensorSeen s))

theorem sensorSeen_posture (s : State) : (sensorSeen s).posture = { s.posture with sensor := .ok } := by
  unfold sensorSeen
  dsimp only
  split
  · exact (notifyBoth_sameBut _ _).posture (by simp)
  · rfl

theorem sensorSeen_port (s : State) (l : Link) : (sensorSeen s).port l =
    if s.posture.sensor = .lost then handed (.sensor true s.posture.posture) (s.port l) else s.port l := by
  unfold sensorSeen
  dsimp only
  split
  · exact notifyBoth_port _ _ l
  · rfl

section
variable (period high : Nat) (s : State)

theorem afterDwell_posture : (afterDwell period high s).posture =
    dwellStep (seenSample period high s.posture) (candidateNow (seenSample period high s.posture)) := by
  simp [afterDwell, seenSample, sensorSeen_posture]

theorem afterDwell_port (l : Link) : (afterDwell period high s).port l =
    if s.posture.sensor = .lost then handed (.sensor true s.posture.posture) (s.port l) else s.port l :=
  sensorSeen_port s l

theorem afterDwell_sameBut : SameBut [.posture, .port .a, .port .b] s (afterDwell period high s) :=
  ((sensorSeen_sameBut s).modPosture (by simp) _).modPosture (by simp) _

/-- With the sensor not lost, a sample changes nothing but the monitor before a posture change. -/
theorem afterDwell_sameBut_of_not_lost (h : s.posture.sensor ≠ .lost) :
    SameBut [.posture] s (afterDwell period high s) := by
  intro p hp
  by_cases hport : ∃ l, p = .port l
  · obtain ⟨l, rfl⟩ := hport
    exact (afterDwell_port period high s l).trans (if_neg h)
  · refine afterDwell_sameBut period high s p ?_
    simp only [not_exists] at hport
    simpa [hport] using hp

variable (order : LinkSet)

/-- Without a posture change an accepted sample leaves the recorded sample with the timeout restarted. -/
theorem acceptSample_of_stays
    (h : changesPosture (seenSample period high s.posture) (candidateNow (seenSample period high s.posture)) = false) :
    acceptSample period high order s = modPosture restartTimeout (afterDwell period high s) := by
  have hseen : (modPosture (recordSample period high) (sensorSeen s)).posture = seenSample period high s.posture := by
    simp [seenSample, sensorSeen_posture]
  unfold acceptSample
  dsimp only
  rw [hseen, h]
  unfold afterDwell
  rw [if_neg (by simp)]
  simp [modPosture, sensorSeen_posture, seenSample]

/-- With one, the posture change runs on the recorded sample before the timeout restarts. -/
theorem acceptSample_of_changes
    (h : changesPosture (seenSample period high s.posture) (candidateNow (seenSample period high s.posture)) = true) :
    acceptSample period high order s =
      modPosture restartTimeout (postureChange order (afterDwell period high s)) := by
  have hseen : (modPosture (recordSample period high) (sensorSeen s)).posture = seenSample period high s.posture := by
    simp [seenSample, sensorSeen_posture]
  unfold acceptSample
  dsimp only
  rw [hseen, h]
  unfold afterDwell
  rw [if_pos rfl]
  simp [modPosture, sensorSeen_posture, seenSample]

/-- Whether or not the posture changes, an accepted sample leaves the dwelt sample with the timeout restarted. -/
theorem acceptSample_posture : ∃ stalled, (acceptSample period high order s).posture = restartTimeout
    { dwellStep (seenSample period high s.posture) (candidateNow (seenSample period high s.posture)) with
      stalled := stalled } := by
  cases h : changesPosture (seenSample period high s.posture) (candidateNow (seenSample period high s.posture)) with
  | false =>
    rw [acceptSample_of_stays period high s order h]
    exact ⟨_, congrArg restartTimeout (afterDwell_posture period high s)⟩
  | true =>
    rw [acceptSample_of_changes period high s order h]
    refine ⟨(postureChange order (afterDwell period high s)).posture.stalled, congrArg restartTimeout ?_⟩
    rw [postureChange_posture, afterDwell_posture]

end

/-! ## The dwell (R31) -/

section
variable {m : PostureMonitor} {c : Posture}

theorem dwellStep_of_changes (h : changesPosture m c = true) :
    dwellStep m c = { m with posture := c, dwellCount := 0, counting := none } := if_pos h

theorem dwellStep_of_stays (h : changesPosture m c = false) :
    dwellStep m c = { m with dwellCount := dwellAfter m c, counting := if c = m.posture then none else some c } :=
  if_neg (by simp [h])

end

/-! ## The HINGE edges (R26) -/

/-- The next period is being measured. -/
def newPeriod (m : PostureMonitor) : PostureMonitor := { m with measurement := some { high := none } }

section
variable {s : State} {order : LinkSet} {ticks : Nat} {m : Measurement} (hm : s.posture.measurement = some m)
include hm

theorem risingEdge_rejected (h : acceptable (stopCount ticks) (m.high.getD (stopCount ticks)) = false) :
    risingEdge ticks order s = modPosture (fun m => { newPeriod m with rejects := m.rejects + 1 }) s := by
  simp [risingEdge, hm, takeSample, h, modPosture, newPeriod]

theorem risingEdge_accepted (h : acceptable (stopCount ticks) (m.high.getD (stopCount ticks)) = true) :
    risingEdge ticks order s = acceptSample (stopCount ticks) (m.high.getD (stopCount ticks)) order
      (modPosture newPeriod s) := by
  simp only [risingEdge, hm, takeSample, h, if_true]
  rfl

end

theorem risingEdge_first {s : State} (h : s.posture.measurement = none) (ticks : Nat) (order : LinkSet) :
    risingEdge ticks order s = modPosture newPeriod s := by
  simp only [risingEdge, h]
  rfl

/-- Settles O12: an edge's effect by what is being measured, and the sample rejected. -/
theorem hingeEdgesMeasureAndReject : Obligations.HingeEdgesMeasureAndReject := by
  refine fun ticks s order hs => ⟨⟨_, congrArg Host.Outcome.next (unlessHeld_running hs _), modPosture_sameBut _ s,
      fun h => ?_, fun h => ?_⟩, _, congrArg Host.Outcome.next (unlessHeld_running hs _), fun h => ?_,
      fun m hm hreject => ?_⟩
  · simp [fallingEdge, h, stopCount]
  · unfold fallingEdge
    rw [modPosture_posture]
    split
    · exact absurd ‹_› h
    · rfl
  · rw [risingEdge_first h]
    exact ⟨modPosture_sameBut _ s, rfl⟩
  · rw [risingEdge_rejected hm (decide_eq_false hreject)]
    exact ⟨modPosture_sameBut _ s, rfl⟩

theorem seenSample_snapshot_of_empty {period high : Nat} {m : PostureMonitor} (h : m.snapshot = none) :
    (seenSample period high m).snapshot = some
      { period := period, high := high, angle := rawAngle period high
        hinge := hingeValue (rawAngle period high) m.settings.zero
        filtered := filteredValue (windowAfter (hingeValue (rawAngle period high) m.settings.zero) m.window) } := by
  simp [seenSample, recordSample, h]

theorem seenSample_snapshot_of_latched {period high : Nat} {m : PostureMonitor} (h : m.snapshot ≠ none) :
    (seenSample period high m).snapshot = m.snapshot := by
  obtain ⟨r, hr⟩ := Option.ne_none_iff_exists'.mp h
  simp [seenSample, recordSample, hr]

/-- Settles O13: each field of what the stages leave, with and without a posture change. -/
theorem acceptedSampleUpdatesMonitor : Obligations.AcceptedSampleUpdatesMonitor := by
  intro ticks s order m hs hm p w hlow hhigh hw hwp a d h win f cand count change
  have hrun : exec (.hingeRise ticks order) s = .next (acceptSample p w order (modPosture newPeriod s)) :=
    (congrArg Host.Outcome.next (unlessHeld_running hs _)).trans
      (congrArg _ (risingEdge_accepted hm (decide_eq_true ⟨hlow, hhigh, hw, hwp⟩)))
  have hchange : changesPosture (seenSample p w (newPeriod s.posture)) cand = true ↔ change := decide_eq_true_iff
  have hempty := seenSample_snapshot_of_empty (period := p) (high := w) (m := newPeriod s.posture)
  have hlatched := seenSample_snapshot_of_latched (period := p) (high := w) (m := newPeriod s.posture)
  refine ⟨_, hrun, ?_⟩
  cases hc : changesPosture (seenSample p w (newPeriod s.posture)) cand with
  | true =>
    obtain ⟨stalled, hposture⟩ := acceptSample_posture p w (modPosture newPeriod s) order
    have hdwelt := hposture.trans (congrArg (fun x => restartTimeout { x with stalled := stalled })
      (dwellStep_of_changes hc))
    rw [hdwelt]
    exact ⟨rfl, rfl, rfl, rfl, hempty, hlatched, rfl, rfl, rfl, rfl, rfl, fun _ => ⟨rfl, rfl, rfl⟩,
      fun hstays => absurd (hchange.mp hc) hstays⟩
  | false =>
    have hstays : ¬ change := by simp [← hchange, hc]
    have hposture := (congrArg restartTimeout (afterDwell_posture p w (modPosture newPeriod s))).trans
      (congrArg restartTimeout (dwellStep_of_stays hc))
    have hwrite := modPosture_sameBut newPeriod s
    have hframe : SameBut [.posture, .port .a, .port .b] s
        (modPosture restartTimeout (afterDwell p w (modPosture newPeriod s))) :=
      ((hwrite.mono (by simp)).trans (afterDwell_sameBut p w _)).modPosture (by simp) _
    have hframe' (h : s.posture.sensor ≠ .lost) : SameBut [.posture] s
        (modPosture restartTimeout (afterDwell p w (modPosture newPeriod s))) :=
      (hwrite.trans (afterDwell_sameBut_of_not_lost p w _ h)).modPosture (by simp) _
    have hport (h : s.posture.sensor = .lost) (l : Link) :
        (modPosture restartTimeout (afterDwell p w (modPosture newPeriod s))).port l =
          handed (.sensor true s.posture.posture) (s.port l) := (afterDwell_port p w _ l).trans (if_pos h)
    rw [acceptSample_of_stays p w (modPosture newPeriod s) order hc]
    replace hposture : (modPosture restartTimeout (afterDwell p w (modPosture newPeriod s))).posture = _ := hposture
    rw [hposture]
    exact ⟨rfl, rfl, rfl, rfl, hempty, hlatched, rfl, rfl, rfl, rfl, rfl, fun h => absurd h hstays,
      fun _ => ⟨rfl, rfl, rfl, rfl, hframe, hframe', hport⟩⟩

/-! ## The sensor timeout and HINGE-SNAPSHOT (R33, R36) -/

theorem modPosture_eq (f : PostureMonitor → PostureMonitor) (s : State) :
    modPosture f s = { s with posture := f s.posture } := rfl

/-- Settles O16: the sensor state decides the timeout, and the latch the snapshot. -/
theorem sensorLossAndSnapshotLatch : Obligations.SensorLossAndSnapshotLatch := by
  refine ⟨fun s hs => ⟨_, congrArg Host.Outcome.next (unlessHeld_running hs _), fun hok => ?_, fun hnot => if_neg hnot⟩,
    fun l tag s h => ⟨_, slotCommand_runs h tag .hingeSnapshot _, fun hempty => ?_, fun r hr => ?_⟩⟩
  · have hrun : timeoutEffect s = notifyBoth (.sensor false s.posture.posture) (modPosture loseSensor s) := if_pos hok
    rw [hrun]
    exact ⟨((SameBut.refl _ s).modPosture (by simp) _).notifyBoth (by simp) (by simp) _,
      (notifyBoth_sameBut _ _).posture (by simp), fun l => notifyBoth_port _ _ l⟩
  · simpa [hingeSnapshotEffect, hempty] using refusedWith_answer l tag .hingeSnapshot .noSample .none s
  · have heffect : hingeSnapshotEffect l tag (arrive l s) = answer l tag .hingeSnapshot .ok (.snapshot r)
        { arrive l s with posture := { s.posture with snapshot := none } } := by
      simp [hingeSnapshotEffect, hr, modPosture_eq]
    obtain ⟨hframe, hanswer⟩ := answer_withWrite
      (withPosture_sameBut { s.posture with snapshot := none } (arrive l s)) (by simp) tag .hingeSnapshot .ok
      (.snapshot r)
    rw [heffect]
    exact ⟨hframe, rfl, hanswer⟩

/-! ## SET-HINGE (R37, R38) -/

section
variable {h : HingeFields}

open Classical in
/-- The checks of the hinge settings are those of its fields in the order of their numbers. -/
theorem hingeFault_hingeOf : hingeFault (hingeOf h) =
    if ¬ settingPasses h 1 then some 1 else if ¬ settingPasses h 2 then some 2 else if ¬ settingPasses h 3 then some 3
    else if ¬ settingPasses h 4 then some 4 else if ¬ settingPasses h 5 then some 5
    else if ¬ settingPasses h 6 then some 6 else if ¬ settingPasses h 7 then some 7 else none := by
  have h1 : (hingeOf h).foldEnter ≤ 1800 ↔ settingPasses h 1 := Iff.rfl
  have h2 : ((hingeOf h).foldExit ≤ 1800 ∧ (hingeOf h).foldEnter < (hingeOf h).foldExit) ↔ settingPasses h 2 := Iff.rfl
  have h3 : ((hingeOf h).flatExit ≤ 1800 ∧ (hingeOf h).foldExit < (hingeOf h).flatExit) ↔ settingPasses h 3 := Iff.rfl
  have h4 : ((hingeOf h).flatEnter ≤ 1800 ∧ (hingeOf h).flatExit < (hingeOf h).flatEnter) ↔ settingPasses h 4 := Iff.rfl
  have h5 : (1 ≤ (hingeOf h).dwell ∧ (hingeOf h).dwell ≤ 32) ↔ settingPasses h 5 := Iff.rfl
  have h6 : (hingeOf h).zero ≤ 3599 ↔ settingPasses h 6 := Iff.rfl
  have h7 : (5 ≤ (hingeOf h).timeout ∧ (hingeOf h).timeout ≤ 255) ↔ settingPasses h 7 := Iff.rfl
  simp only [hingeFault, h1, h2, h3, h4, h5, h6, h7]

theorem hingeFault_of_allPass (hpass : AllPass (settingPasses h) 7) : hingeFault (hingeOf h) = none := by
  have hall : ∀ m, 1 ≤ m → m ≤ 7 → settingPasses h m := hpass
  simp [hingeFault_hingeOf, hall]

theorem hingeFault_of_firstFailing {n : Nat} (hfail : FirstFailing (settingPasses h) 7 n) :
    hingeFault (hingeOf h) = some n := by
  obtain ⟨hfrom, hto, hfails, hbelow⟩ := hfail
  interval_cases n <;> simp [hingeFault_hingeOf, hfails, hbelow]

end

theorem setHingeEffect_sets {h : HingeFields} (hpass : AllPass (settingPasses h) 7) (l : Link) (tag : Byte)
    (s : State) : setHingeEffect l tag h (arrive l s) = answer l tag .setHinge .ok (.hinge (hingeOf h))
      { arrive l s with posture := newSettings (hingeOf h) s.posture } := by
  simp [setHingeEffect, hingeFault_of_allPass hpass, modPosture_eq]

/-- Settles O17: the first failing field is named, and settings that pass are written whole. -/
theorem setHingeChecksSevenFields : Obligations.SetHingeChecksSevenFields := by
  refine fun l tag h s hs => ⟨_, slotCommand_runs hs tag .setHinge _, fun n hfail => ?_, fun hpass => ?_⟩
  · simpa [setHingeEffect, hingeFault_of_firstFailing hfail] using
      refusedWith_answer l tag .setHinge .badParam (.field n) s
  · intro now
    obtain ⟨hframe, hanswer⟩ := answer_withWrite
      (withPosture_sameBut (newSettings (hingeOf h) s.posture) (arrive l s)) (by simp) tag .setHinge .ok
      (.hinge (hingeOf h))
    rw [setHingeEffect_sets hpass]
    refine ⟨hframe, hanswer, fun hzero => ?_, fun hzero => ?_⟩
    · exact congrArg (fun w => { s.posture with settings := now, dwellCount := 0, counting := none, window := w })
        (if_pos hzero)
    · exact congrArg (fun w => { s.posture with settings := now, dwellCount := 0, counting := none, window := w })
        (if_neg hzero)

/-! ## The laws of the monitor -/

theorem rawAngle_le {period high : Nat} (h : acceptable period high = true) : rawAngle period high ≤ 3599 := by
  obtain ⟨hlow, hhigh, hw, hwp⟩ := of_decide_eq_true h
  have hbelow : 3600 * high + period / 2 < period * 3600 := by omega
  exact Nat.le_of_lt_succ (Nat.div_lt_of_lt_mul hbelow)

theorem hingeValue_le (angle closed : Nat) : hingeValue angle closed ≤ 1800 := by
  unfold hingeValue
  dsimp only
  split_ifs <;> omega

/-- The values of a window are hinge values (R29). -/
abbrev WindowOk (w : Window) : Prop := w.h1 ≤ 1800 ∧ w.h2 ≤ 1800 ∧ w.h3 ≤ 1800 ∧ w.h4 ≤ 1800

theorem windowAfter_ok {x : Option Window} (h : ∀ w ∈ x, WindowOk w) {v : Nat} (hv : v ≤ 1800) :
    WindowOk (windowAfter v x) := by
  cases x with
  | none => exact ⟨hv, hv, hv, hv⟩
  | some w =>
    obtain ⟨-, h2, h3, h4⟩ := h w rfl
    exact ⟨h2, h3, h4, hv⟩

theorem filteredValue_le {w : Window} (h : WindowOk w) : filteredValue w ≤ 1800 := by
  obtain ⟨h1, h2, h3, h4⟩ := h
  unfold filteredValue
  omega

/-- An accepted sample keeps the laws: what is recorded lies in range, the dwell stays below DWELL, the timeout runs. -/
theorem postureOk_sampled {m : PostureMonitor} (h : PostureOk m) {period high : Nat}
    (hacc : acceptable period high = true) :
    PostureOk (restartTimeout (dwellStep (seenSample period high m) (candidateNow (seenSample period high m)))) := by
  obtain ⟨hset, hbelow, hzero, hown, hunknown, hwin, hlast, hsnap, -, -, -, -⟩ := h
  have hangle := rawAngle_le hacc
  have hhinge := hingeValue_le (rawAngle period high) m.settings.zero
  have hwindow := windowAfter_ok hwin hhinge
  have hfiltered := filteredValue_le hwindow
  obtain ⟨hp400, hp4000, hw1, hwp⟩ := of_decide_eq_true hacc
  obtain ⟨-, -, -, -, hdwell, -, -, hfrom, hto⟩ := id hset
  have hsnap' : ∀ r ∈ (seenSample period high m).snapshot, 400 ≤ r.period ∧ r.period ≤ 4000 ∧ 1 ≤ r.high
      ∧ r.high < r.period ∧ r.angle ≤ 3599 ∧ r.hinge ≤ 1800 ∧ r.filtered ≤ 1800 := by
    cases hm : m.snapshot with
    | none =>
      rw [seenSample_snapshot_of_empty hm]
      rintro r ⟨⟩
      exact ⟨hp400, hp4000, hw1, by dsimp only; omega, hangle, hhinge, hfiltered⟩
    | some r =>
      rw [seenSample_snapshot_of_latched (by simp [hm])]
      exact hsnap
  have hlast' : ∀ v ∈ (seenSample period high m).last, v.hinge ≤ 1800 ∧ v.filtered ≤ 1800 := by
    rintro v ⟨⟩
    exact ⟨hhinge, hfiltered⟩
  have hwin' : ∀ w ∈ (seenSample period high m).window, WindowOk w := by
    rintro w ⟨⟩
    exact hwindow
  have hrunning : ∀ n ∈ (restartTimeout (seenSample period high m)).running, 5 ≤ n ∧ n ≤ 255 := by
    rintro n ⟨⟩
    exact ⟨hfrom, hto⟩
  have hcand : candidateNow (seenSample period high m) ≠ .unknown := candidate_ne_unknown _ _ _
  generalize candidateNow (seenSample period high m) = c at hcand
  cases hc : changesPosture (seenSample period high m) c with
  | true =>
    rw [dwellStep_of_changes hc]
    exact ⟨hset, hdwell, iff_of_true rfl rfl, nofun, nofun, hwin', hlast', hsnap', iff_of_false nofun nofun,
      iff_of_false nofun (fun h => h rfl), hrunning, fun _ => nofun⟩
  | false =>
    rw [dwellStep_of_stays hc]
    have hcount : dwellAfter m c < m.settings.dwell := by
      by_cases hsame : c = m.posture
      · exact (if_pos hsame).trans_lt hdwell
      · exact Nat.lt_of_not_le fun hle => of_decide_eq_false hc ⟨hsame, hle⟩
    have hnone : dwellAfter m c = 0 ↔ (if c = m.posture then none else some c) = none := by
      unfold dwellAfter
      split_ifs <;> simp
    have hother : (if c = m.posture then none else some c) ≠ some m.posture := by
      split_ifs with hsame
      · nofun
      · simpa using hsame
    have hknown : (if c = m.posture then none else some c) ≠ some .unknown := by
      split_ifs
      · nofun
      · simpa using hcand
    exact ⟨hset, hcount, hnone, hother, hknown, hwin', hlast', hsnap', iff_of_false nofun nofun,
      iff_of_false nofun (fun h => h rfl), hrunning, fun _ => nofun⟩

/-- The law of the monitor, of the whole state. -/
abbrev MonitorOk (s : State) : Prop := PostureOk s.posture

theorem MonitorOk.of_same {s t : State} (h : MonitorOk s) (ht : t.posture = s.posture) : MonitorOk t :=
  (congrArg PostureOk ht).mpr h

theorem MonitorOk.of_stalled {s t : State} (h : MonitorOk s) {b : Bool}
    (ht : t.posture = { s.posture with stalled := b }) : MonitorOk t := (congrArg PostureOk ht).mpr h

/-- The engine's part of a frame start writes nothing of the monitor but the stalled flag, and that only at a switch. -/
theorem engineFrame_posture (s : State) :
    ∃ b, (engineFrame s).posture = { s.posture with stalled := b } := by
  unfold engineFrame
  split
  · exact ⟨_, rfl⟩
  · next p hp =>
    split
    · exact ⟨_, makeSwitch_posture hp _⟩
    · split
      · exact ⟨_, makeSwitch_posture hp _⟩
      · exact ⟨_, rfl⟩

theorem frameStart_posture (order : LinkSet) (s : State) :
    ∃ b, (frameStart order s).posture = { s.posture with stalled := b } := by
  obtain ⟨b, hb⟩ := engineFrame_posture
    (storeFrame (abortIfFirst .b order.b (abortIfFirst .a order.a (scanFrame (finishFrame s)))))
  have hbefore : (storeFrame (abortIfFirst .b order.b (abortIfFirst .a order.a (scanFrame (finishFrame s))))).posture
      = s.posture :=
    (((((finishFrame_sameBut s).mono (d := [.engine, .scan, .outputs, .port .a, .port .b]) (by simp)).trans
      ((scanFrame_sameBut _).mono (by simp))).trans (((abortIfFirst_sameBut .a order.a _).trans
      (abortIfFirst_sameBut .b order.b _)).mono (by simp))).trans ((storeFrame_sameBut _).mono (by simp))).posture
      (by simp)
  have hafter := ((portFrame_sameBut .a (engineFrame (storeFrame
    (abortIfFirst .b order.b (abortIfFirst .a order.a (scanFrame (finishFrame s))))))).trans
      (portFrame_sameBut .b _)).posture (by simp)
  exact ⟨b, hafter.trans (hb.trans (by rw [hbefore]))⟩

theorem MonitorOk.frameStart {s : State} (h : MonitorOk s) (order : LinkSet) : MonitorOk (frameStart order s) := by
  obtain ⟨b, hb⟩ := frameStart_posture order s
  exact h.of_stalled hb

theorem MonitorOk.risingEdge {s : State} (h : MonitorOk s) (ticks : Nat) (order : LinkSet) :
    MonitorOk (risingEdge ticks order s) := by
  cases hm : s.posture.measurement with
  | none => exact risingEdge_first hm ticks order ▸ h
  | some m =>
    cases hacc : acceptable (stopCount ticks) (m.high.getD (stopCount ticks)) with
    | false => exact risingEdge_rejected (order := order) hm hacc ▸ h
    | true =>
      rw [risingEdge_accepted hm hacc]
      obtain ⟨stalled, hposture⟩ := acceptSample_posture (stopCount ticks) (m.high.getD (stopCount ticks))
        (modPosture newPeriod s) order
      exact (congrArg PostureOk hposture).mpr (postureOk_sampled (m := newPeriod s.posture) h hacc)

theorem settingsOk_of_noFault {h : HingeSettings} (hfault : hingeFault h = none) : SettingsOk h := by
  unfold hingeFault at hfault
  split_ifs at hfault
  refine ⟨?_, ?_, ?_, ?_, ?_, ?_, ?_, ?_, ?_⟩ <;> omega

theorem postureOk_newSettings {m : PostureMonitor} (hm : PostureOk m) {h : HingeSettings} (hh : SettingsOk h) :
    PostureOk (newSettings h m) := by
  obtain ⟨-, -, -, -, -, hwin, hlast, hsnap, hnone, hrun, hrange, hknown⟩ := hm
  obtain ⟨-, -, -, -, hdwell, -⟩ := id hh
  refine ⟨hh, hdwell, iff_of_true rfl rfl, nofun, nofun, ?_, hlast, hsnap, hnone, hrun, hrange, hknown⟩
  intro w hw
  simp only [newSettings] at hw
  split at hw
  · exact hwin w hw
  · cases hw

theorem postureOk_lost {m : PostureMonitor} (hm : PostureOk m) (hok : m.sensor = .ok) : PostureOk (loseSensor m) := by
  obtain ⟨hset, -, -, -, -, -, hlast, hsnap, hnone, -, -, hknown⟩ := hm
  obtain ⟨-, -, -, -, hdwell, -⟩ := id hset
  refine ⟨hset, hdwell, iff_of_true rfl rfl, nofun, nofun, nofun, hlast, hsnap, ?_, iff_of_true rfl nofun, nofun, hknown⟩
  rw [hok] at hnone
  exact iff_of_false (mt hnone.mp nofun) nofun

theorem postureOk_fresh {h : HingeSettings} (hh : SettingsOk h) (b : Bindings) :
    PostureOk (PostureMonitor.fresh b h) := by
  obtain ⟨-, -, -, -, hdwell, -⟩ := id hh
  exact ⟨hh, hdwell, iff_of_true rfl rfl, nofun, nofun, nofun, nofun, nofun, iff_of_true rfl rfl,
    iff_of_true rfl nofun, nofun, fun hknown => absurd rfl hknown⟩

/-- A command that uses the slot writes the monitor by SET-HINGE, SET-FACE, BIND and HINGE-SNAPSHOT alone. -/
theorem MonitorOk.slotEffect {i : Instr} {l : Link} {tag : Byte} {c : Command} (hi : slotUser i = some (l, tag, c))
    {s : State} (h : MonitorOk s) : MonitorOk (slotEffect i s) := by
  cases i <;> cases hi
  case setHinge.refl fields =>
    simp only [Machine.slotEffect, setHingeEffect]
    split
    · exact h
    · next hnone => exact postureOk_newSettings h (settingsOk_of_noFault hnone)
  case setFace.refl =>
    simp only [Machine.slotEffect, setFaceEffect]
    split
    · exact h
    · next f _ =>
      have hface : MonitorOk (modPosture (fun m => { m with face := f }) s) := h
      exact hface.of_stalled (evaluateAndTell_posture .face .face _)
  case bind.refl =>
    simp only [Machine.slotEffect, bindEffect]
    split
    · exact h
    · split
      · exact h
      · split
        · exact h
        · next p _ _ f _ _ x _ =>
          have hbound : MonitorOk (modPosture (fun m => { m with bindings := setBinding p f x m.bindings }) s) := h
          exact hbound.of_stalled (evaluateAndTell_posture .bind .bind _)
  case hingeSnapshot.refl =>
    simp only [Machine.slotEffect, hingeSnapshotEffect]
    split
    · exact h
    · obtain ⟨hset, hbelow, hzero, hown, hunknown, hwin, hlast, -, hnone, hrun, hrange, hknown⟩ := h
      exact ⟨hset, hbelow, hzero, hown, hunknown, hwin, hlast, nofun, hnone, hrun, hrange, hknown⟩
  all_goals exact h.of_same ((slotEffect_sameBut (tag := tag) rfl s).posture (by simp [changedBy]))

theorem MonitorOk.eventEffect {i : Instr} (hp : packetLink i = none) (hb : isBytes i = false) {s : State}
    (h : MonitorOk s) : MonitorOk (eventEffect i s) := by
  have due (b : Bool) : MonitorOk (if b then Machine.frameStart completionsFirst s else s) := by
    split
    · exact h.frameStart _
    · exact h
  have hframe := eventEffect_sameBut hp hb s
  cases i
  case hingeFall ticks =>
    simp only [Machine.eventEffect, MonitorOk, modPosture_posture, fallingEdge]
    split <;> exact h
  case hingeRise ticks order => exact h.risingEdge ticks order
  case sensorTimeout =>
    simp only [Machine.eventEffect, timeoutEffect]
    split
    · next hok =>
      have hlost : MonitorOk (modPosture loseSensor s) := postureOk_lost h hok
      exact hlost.of_same ((notifyBoth_sameBut _ _).posture (by simp))
    · exact h
  case frameStart order => exact h.frameStart order
  case ackWindowExpiry => exact due _
  case quietDetect => exact due _
  case waitFrameDone => exact due _
  case badPacket => cases hb
  case powerOnReset | resetInput | resetEnd | protectPulse => exact h
  case cutoffAssert | rowScan | touchReadStart | touchReadTimeout | touchReport | responseSent =>
    exact h.of_same (hframe.posture (by simp [changedBy]))
  all_goals cases hp

theorem stepKeeps_monitorOk : StepKeeps MonitorOk where
  packets := {
    arrives := fun l s h => h.of_same (arrive_posture s l)
    counts := fun l k s h => h
    responds := fun l tag code st r s h _ => h
    levels := fun level s h => h
    slotEffects := fun i l tag c s hi _ _ h => h.slotEffect hi
    immediateEffects := fun i l s hi _ h =>
      h.of_same ((immediateEffect_sameBut hi s).posture (by cases i <;> cases hi <;> simp [changedBy]))
    pixelEffects := fun i l s hi h =>
      h.of_same ((pixelEffect_sameBut hi s).posture (by cases i <;> cases hi <;> simp [changedBy]))
    portResets := fun l tag s _ h => h.of_same ((portResetEffect_sameBut l s tag).posture (by simp)) }
  events i s hp hb _ h := h.eventEffect hp hb
  powersOn s _ := postureOk_fresh (by decide) _
  resets s h := by
    obtain ⟨hset, -⟩ := h
    exact postureOk_fresh hset _
  endsReset cutoff ready s h := h
  protects s h := h
  queues q s h := h

/-- Settles O56: only samples, the timeout, the settings and the snapshot write what the laws speak of. -/
theorem stepKeepsPostureLaws : Obligations.StepKeepsPostureLaws :=
  fun _ _ h ht => stepKeeps_monitorOk.step (P := MonitorOk) h ht

end Sys2Proof.Machine
end

section
/-! PROOFS. The placement of buffers (section 4.2): the free gaps of a map in order, first fit among them, and what an
allocation request leaves; the store summary (R102). -/

namespace Sys2Proof.Machine

/-! ## Maps in order -/

/-- The runs of a map stand in order from block `pos` on, each within the store. -/
abbrev OrderedFrom (pos : Nat) (map : List Run) : Prop :=
  map.Pairwise (fun x y => x.first + x.count ≤ y.first)
    ∧ ∀ r ∈ map, pos ≤ r.first ∧ r.first + r.count ≤ 1536

theorem OrderedFrom.tail {pos : Nat} {r : Run} {map : List Run} (h : OrderedFrom pos (r :: map)) :
    OrderedFrom (r.first + r.count) map := by
  obtain ⟨hpair, hmem⟩ := h
  obtain ⟨hfirst, hrest⟩ := List.pairwise_cons.mp hpair
  exact ⟨hrest, fun x hx => ⟨hfirst x hx, (hmem x (List.mem_cons_of_mem _ hx)).2⟩⟩

theorem OrderedFrom.head {pos : Nat} {r : Run} {map : List Run} (h : OrderedFrom pos (r :: map)) :
    pos ≤ r.first ∧ r.first + r.count ≤ 1536 := h.2 r List.mem_cons_self

theorem freeGaps_nil (pos : Nat) : freeGaps pos [] = if pos < 1536 then [(pos, 1536 - pos)] else [] := rfl

theorem freeGaps_cons (pos : Nat) (r : Run) (map : List Run) :
    freeGaps pos (r :: map) =
      (if pos < r.first then [(pos, r.first - pos)] else []) ++ freeGaps (r.first + r.count) map := rfl

/-- A free gap begins at `pos` or behind a run, and ends at the end of the store or before a run. -/
abbrev GapFrom (pos : Nat) (map : List Run) (g : Nat × Nat) : Prop :=
  1 ≤ g.2 ∧ pos ≤ g.1 ∧ Fits map g.2 g.1 ∧ (g.1 = pos ∨ ∃ r ∈ map, r.first + r.count = g.1)
    ∧ (g.1 + g.2 = 1536 ∨ ∃ r ∈ map, r.first = g.1 + g.2)

theorem gapFrom_of_mem {pos : Nat} {map : List Run} (h : OrderedFrom pos map) {g : Nat × Nat}
    (hg : g ∈ freeGaps pos map) : GapFrom pos map g := by
  induction map generalizing pos with
  | nil =>
    rw [freeGaps_nil] at hg
    split at hg
    · next hpos =>
      obtain rfl := List.mem_singleton.mp hg
      exact ⟨by dsimp only; omega, le_rfl, ⟨by dsimp only; omega, by simp⟩, .inl rfl, .inl (by dsimp only; omega)⟩
    · cases hg
  | cons r map ih =>
    obtain ⟨hpos, hend⟩ := h.head
    rw [freeGaps_cons, List.mem_append] at hg
    obtain hg | hg := hg
    · split at hg
      · next hlt =>
        obtain rfl := List.mem_singleton.mp hg
        refine ⟨by dsimp only; omega, le_rfl, ⟨by dsimp only; omega, fun x hx => .inl ?_⟩, .inl rfl,
          .inr ⟨r, List.mem_cons_self, by dsimp only; omega⟩⟩
        obtain rfl | hx := List.mem_cons.mp hx
        · dsimp only; omega
        · have := (h.tail.2 x hx).1
          dsimp only; omega
      · cases hg
    · obtain ⟨hone, hfrom, ⟨hstore, hmeets⟩, hleft, hright⟩ := ih h.tail hg
      refine ⟨hone, by omega, ⟨hstore, fun x hx => ?_⟩, .inr ?_, ?_⟩
      · obtain rfl | hx := List.mem_cons.mp hx
        · exact .inr hfrom
        · exact hmeets x hx
      · obtain hleft | ⟨x, hx, hend⟩ := hleft
        · exact ⟨r, List.mem_cons_self, hleft.symm⟩
        · exact ⟨x, List.mem_cons_of_mem _ hx, hend⟩
      · exact hright.imp_right fun ⟨x, hx, hstart⟩ => ⟨x, List.mem_cons_of_mem _ hx, hstart⟩

/-- What fits at a place lies in a free gap. -/
theorem exists_gap_of_fits {pos need n : Nat} {map : List Run} (h : OrderedFrom pos map) (hneed : 1 ≤ need)
    (hpos : pos ≤ n) (hn : Fits map need n) : ∃ g ∈ freeGaps pos map, g.1 ≤ n ∧ n + need ≤ g.1 + g.2 := by
  obtain ⟨hstore, hmeets⟩ := hn
  induction map generalizing pos with
  | nil =>
    refine ⟨(pos, 1536 - pos), ?_, hpos, by dsimp only; omega⟩
    rw [freeGaps_nil, if_pos (by omega)]
    exact List.mem_singleton_self _
  | cons r map ih =>
    obtain ⟨hr, hrest⟩ := List.forall_mem_cons.mp hmeets
    rw [freeGaps_cons]
    obtain hbefore | hbehind := hr
    · refine ⟨(pos, r.first - pos), List.mem_append_left _ ?_, hpos, by dsimp only; omega⟩
      rw [if_pos (by omega)]
      exact List.mem_singleton_self _
    · obtain ⟨g, hg, hgap⟩ := ih h.tail hbehind hrest
      exact ⟨g, List.mem_append_right _ hg, hgap⟩

/-- The free gaps stand in order. -/
theorem freeGaps_ordered {pos : Nat} {map : List Run} (h : OrderedFrom pos map) :
    (freeGaps pos map).Pairwise (fun g x => g.1 + g.2 ≤ x.1) := by
  induction map generalizing pos with
  | nil =>
    rw [freeGaps_nil]
    split <;> simp
  | cons r map ih =>
    rw [freeGaps_cons, List.pairwise_append]
    refine ⟨by split <;> simp, ih h.tail, fun g hg x hx => ?_⟩
    have hbehind := (gapFrom_of_mem h.tail hx).2.1
    split at hg
    · obtain rfl := List.mem_singleton.mp hg
      dsimp only; omega
    · cases hg

/-! ## First fit (R82) -/

theorem fits_of_le {map : List Run} {need need' n : Nat} (h : Fits map need n) (hle : need' ≤ need) :
    Fits map need' n :=
  ⟨by have := h.1; omega, fun r hr => (h.2 r hr).imp_left (by omega)⟩

theorem firstFit_eq_some {map : List Run} {need n : Nat} (h : OrderedFrom 0 map) (hneed : 1 ≤ need)
    (hn : firstFit need map = some n) : Fits map need n ∧ ∀ m, m < n → ¬ Fits map need m := by
  obtain ⟨g, hfind, rfl⟩ := Option.map_eq_some_iff.mp hn
  obtain ⟨hlong, before, after, hsplit, hbefore⟩ := List.find?_eq_some_iff_append.mp hfind
  have hlong : need ≤ g.2 := by simpa using hlong
  have hmem : g ∈ freeGaps 0 map := by simp [hsplit]
  obtain ⟨-, -, hfits, -⟩ := gapFrom_of_mem h hmem
  refine ⟨fits_of_le hfits hlong, fun m hm hfit => ?_⟩
  obtain ⟨x, hx, hxm, hxlong⟩ := exists_gap_of_fits h hneed (Nat.zero_le m) hfit
  have hordered := freeGaps_ordered h
  rw [hsplit] at hx hordered
  obtain ⟨-, hrest, -⟩ := List.pairwise_append.mp hordered
  obtain hx | hx := List.mem_append.mp hx
  · have := hbefore x hx
    simp at this
    omega
  · obtain rfl | hx := List.mem_cons.mp hx
    · omega
    · have := (List.pairwise_cons.mp hrest).1 x hx
      omega

theorem firstFit_eq_none {map : List Run} {need : Nat} (h : OrderedFrom 0 map) (hneed : 1 ≤ need)
    (hn : firstFit need map = none) (m : Nat) : ¬ Fits map need m := by
  intro hfit
  obtain ⟨x, hx, hxm, hxlong⟩ := exists_gap_of_fits h hneed (Nat.zero_le m) hfit
  have hshort := List.find?_eq_none.mp (Option.map_eq_none_iff.mp hn) x hx
  simp at hshort
  omega

/-! ## Placing buffers and regions (R82, R83) -/

/-- The run of a buffer that is being placed. -/
def placedRun (r : Region) (label : Label) (first : Nat) : Run :=
  { first := first, count := blocks r.width r.height, tag := r.tag, role := .pending, label := label }

theorem placeBuffer_eq_none {map : List Run} {r : Region} (h : firstFit (blocks r.width r.height) map = none)
    (label : Label) : placeBuffer map r label = none := by
  simp [placeBuffer, h]

theorem placeBuffer_eq_some {map : List Run} {r : Region} {n : Nat}
    (h : firstFit (blocks r.width r.height) map = some n) (label : Label) :
    placeBuffer map r label = some (newBuffer label n (blocks r.width r.height) r.height,
      insertRun (placedRun r label n) map) := by
  simp [placeBuffer, h, placedRun]

/-- Settles O40: the gaps of a map in order say where a buffer fits, and the regions are placed one by one. -/
theorem allocationIsFirstFit : Obligations.AllocationIsFirstFit := by
  refine ⟨fun map need hneed hordered hstore => ?_, fun map r rs => ?_⟩
  · have h : OrderedFrom 0 map := ⟨hordered, fun r hr => ⟨Nat.zero_le _, hstore r hr⟩⟩
    exact ⟨fun n hn => firstFit_eq_some h hneed hn, firstFit_eq_none h hneed⟩
  · intro need empty
    have hblocks : blocks r.width r.height = need := rfl
    refine ⟨rfl, fun hs => by simp [allocate, placeRegion, hs], fun hs hfull => ?_, fun n hn => ?_⟩
    · have hbuffer (label : Label) : placeBuffer map r label = none := placeBuffer_eq_none hfull label
      cases hc : r.content with
      | streamed => exact absurd hc hs
      | single => simp [allocate, placeRegion, hc, hbuffer]
      | double => simp [allocate, placeRegion, hc, hbuffer]
    · have ha := placeBuffer_eq_some hn .a
      intro map1
      refine ⟨fun hs => ?_, fun hd hfull => ?_, fun m hm hd => ?_⟩
      · simp only [allocate, placeRegion, hs, ha]
        rfl
      · have hb : placeBuffer (insertRun (placedRun r .a n) map) r .b = none := placeBuffer_eq_none hfull .b
        simp only [allocate, placeRegion, hd, ha, hb]
      · have hb := placeBuffer_eq_some (map := insertRun (placedRun r .a n) map) hm .b
        simp only [allocate, placeRegion, hd, ha, hb]
        rfl

/-! ## Runs that are apart (R81) -/

/-- Two runs share no block. -/
abbrev Apart (x y : Run) : Prop := x.first + x.count ≤ y.first ∨ y.first + y.count ≤ x.first

theorem Apart.symm {x y : Run} (h : Apart x y) : Apart y x := h.elim .inr .inl

/-- No two of some runs share a block, and each lies in the store. -/
abbrev RunsApart (runs : List Run) : Prop :=
  runs.Pairwise Apart ∧ ∀ r ∈ runs, 1 ≤ r.count ∧ r.first + r.count ≤ 1536

theorem RunsApart.perm {xs ys : List Run} (h : RunsApart xs) (hp : xs.Perm ys) : RunsApart ys :=
  ⟨h.1.perm hp (fun hxy => Apart.symm hxy), fun r hr => h.2 r (hp.mem_iff.mpr hr)⟩

/-- A map in order of runs that hold blocks. -/
abbrev MapOk (map : List Run) : Prop := OrderedFrom 0 map ∧ ∀ r ∈ map, 1 ≤ r.count

theorem MapOk.runsApart {map : List Run} (h : MapOk map) : RunsApart map :=
  ⟨h.1.1.imp fun hxy => .inl hxy, fun r hr => ⟨h.2 r hr, (h.1.2 r hr).2⟩⟩

theorem insertRun_perm (x : Run) (map : List Run) : (insertRun x map).Perm (x :: map) := by
  induction map with
  | nil => exact .refl _
  | cons y ys ih =>
    unfold insertRun
    split
    · exact .refl _
    · exact (ih.cons y).trans (.swap x y ys)

theorem insertRun_ordered {x : Run} {map : List Run}
    (h : map.Pairwise (fun x y => x.first + x.count ≤ y.first)) (hcount : ∀ r ∈ x :: map, 1 ≤ r.count)
    (hx : ∀ r ∈ map, Apart x r) : (insertRun x map).Pairwise (fun x y => x.first + x.count ≤ y.first) := by
  induction map with
  | nil => simp [insertRun]
  | cons y ys ih =>
    obtain ⟨hy, hys⟩ := List.pairwise_cons.mp h
    obtain ⟨hxy, hrest⟩ := List.forall_mem_cons.mp hx
    obtain ⟨hx1, hcounts⟩ := List.forall_mem_cons.mp hcount
    obtain ⟨hy1, hcounts⟩ := List.forall_mem_cons.mp hcounts
    unfold insertRun
    split
    · have hbefore : x.first + x.count ≤ y.first := hxy.resolve_right (by omega)
      refine List.pairwise_cons.mpr ⟨fun z hz => ?_, h⟩
      obtain rfl | hz := List.mem_cons.mp hz
      · exact hbefore
      · have := hy z hz
        omega
    · have hbehind : y.first + y.count ≤ x.first := hxy.resolve_left (by omega)
      refine List.pairwise_cons.mpr ⟨fun z hz => ?_, ih hys (List.forall_mem_cons.mpr ⟨hx1, hcounts⟩) hrest⟩
      obtain rfl | hz := List.mem_cons.mp ((insertRun_perm x ys).mem_iff.mp hz)
      · exact hbehind
      · exact hy z hz

theorem mapOk_insertRun {x : Run} {map : List Run} (h : MapOk map) (hcount : 1 ≤ x.count)
    (hx : Fits map x.count x.first) : MapOk (insertRun x map) := by
  have hmem {r : Run} (hr : r ∈ insertRun x map) : r = x ∨ r ∈ map :=
    List.mem_cons.mp ((insertRun_perm x map).mem_iff.mp hr)
  refine ⟨⟨insertRun_ordered h.1.1 (List.forall_mem_cons.mpr ⟨hcount, h.2⟩) fun r hr => hx.2 r hr, fun r hr => ?_⟩,
    fun r hr => ?_⟩
  · obtain rfl | hr := hmem hr
    · exact ⟨Nat.zero_le _, hx.1⟩
    · exact h.1.2 r hr
  · obtain rfl | hr := hmem hr
    · exact hcount
    · exact h.2 r hr

theorem foldr_insertRun_perm (runs : List Run) : (runs.foldr insertRun []).Perm runs := by
  induction runs with
  | nil => exact .refl _
  | cons x xs ih => exact (insertRun_perm x _).trans (ih.cons x)

/-- The store map holds the runs of the records, in order. -/
theorem storeMap_perm (records : List RuntimeRecord) : (storeMap records).Perm (records.flatMap recordRuns) :=
  foldr_insertRun_perm _

theorem mapOk_foldr_insertRun {runs : List Run} (h : RunsApart runs) : MapOk (runs.foldr insertRun []) := by
  induction runs with
  | nil => exact ⟨⟨.nil, nofun⟩, nofun⟩
  | cons x xs ih =>
    obtain ⟨hpair, hmem⟩ := h
    obtain ⟨hx, hxs⟩ := List.pairwise_cons.mp hpair
    obtain ⟨⟨hone, hstore⟩, hrest⟩ := List.forall_mem_cons.mp hmem
    exact mapOk_insertRun (ih ⟨hxs, hrest⟩) hone
      ⟨hstore, fun r hr => hx r ((foldr_insertRun_perm xs).mem_iff.mp hr)⟩

theorem storeMap_mapOk {e : Engine} (h : RunsOk e) : MapOk (storeMap e.records) := mapOk_foldr_insertRun h

/-! ## What an allocation request leaves -/

/-- The runs of buffers that have just been placed for a region. -/
def newRuns (epoch : Word) (placed : List (Region × Option Buffers)) : List Run :=
  (placed.map (newRecord epoch)).flatMap recordRuns

theorem placeBuffer_spec {map : List Run} (h : MapOk map) {r : Region} (hsize : 1 ≤ blocks r.width r.height)
    {label : Label} {b : Buffer} {map' : List Run} (hplaced : placeBuffer map r label = some (b, map')) :
    ∃ n, b = newBuffer label n (blocks r.width r.height) r.height ∧ map' = insertRun (placedRun r label n) map
      ∧ MapOk map' := by
  cases hn : firstFit (blocks r.width r.height) map with
  | none =>
    rw [placeBuffer_eq_none hn] at hplaced
    cases hplaced
  | some n =>
    rw [placeBuffer_eq_some hn] at hplaced
    obtain ⟨rfl, rfl⟩ := Prod.mk.inj (Option.some.inj hplaced)
    exact ⟨n, rfl, rfl, mapOk_insertRun h hsize (firstFit_eq_some h.1 hsize hn).1⟩

theorem placeBuffer_buffer {map : List Run} {r : Region} {label : Label} {b : Buffer} {map' : List Run}
    (hplaced : placeBuffer map r label = some (b, map')) :
    ∃ n, b = newBuffer label n (blocks r.width r.height) r.height := by
  cases hn : firstFit (blocks r.width r.height) map with
  | none =>
    rw [placeBuffer_eq_none hn] at hplaced
    cases hplaced
  | some n =>
    rw [placeBuffer_eq_some hn] at hplaced
    exact ⟨n, (Prod.mk.inj (Option.some.inj hplaced)).1.symm⟩

/-- A region placed holds the buffers that its content calls for. -/
theorem placeRegion_buffers {map : List Run} {r : Region} {x : Option Buffers} {map' : List Run}
    (hplaced : placeRegion map r = some (x, map')) : buffersOk r .pending x = true := by
  unfold placeRegion at hplaced
  cases hc : r.content with
  | streamed =>
    simp only [hc, Option.some.injEq, Prod.mk.injEq] at hplaced
    simp [buffersOk, hc, ← hplaced.1]
  | single =>
    simp only [hc] at hplaced
    split at hplaced
    · cases hplaced
    · next a map1 ha =>
      obtain ⟨n, rfl⟩ := placeBuffer_buffer ha
      obtain ⟨rfl, -⟩ := Prod.mk.inj (Option.some.inj hplaced)
      simp [buffersOk, hc, newBuffer]
  | double =>
    simp only [hc] at hplaced
    split at hplaced
    · cases hplaced
    · next a map1 ha =>
      obtain ⟨n, rfl⟩ := placeBuffer_buffer ha
      split at hplaced
      · cases hplaced
      · next b map2 hb =>
        obtain ⟨m, rfl⟩ := placeBuffer_buffer hb
        obtain ⟨rfl, -⟩ := Prod.mk.inj (Option.some.inj hplaced)
        simp [buffersOk, hc, newBuffer]

/-- An allocation request that is met: its regions in order, each with the buffers its content calls for. -/
theorem allocate_buffers {map : List Run} {rs : List Region} {placed : List (Region × Option Buffers)}
    (hplaced : allocate map rs = some placed) :
    placed.map Prod.fst = rs ∧ ∀ x ∈ placed, buffersOk x.1 .pending x.2 = true := by
  induction rs generalizing map placed with
  | nil =>
    obtain rfl := Option.some.inj hplaced
    exact ⟨rfl, by simp⟩
  | cons r rs ih =>
    unfold allocate at hplaced
    split at hplaced
    · cases hplaced
    · next x map1 hregion =>
      obtain ⟨rest, hrest, rfl⟩ := Option.map_eq_some_iff.mp hplaced
      obtain ⟨hregions, hrestok⟩ := ih hrest
      exact ⟨congrArg (r :: ·) hregions, List.forall_mem_cons.mpr ⟨placeRegion_buffers hregion, hrestok⟩⟩

/-- The map with the runs of a region's buffers in it. -/
theorem placeRegion_map {map : List Run} (h : MapOk map) {r : Region}
    (hsize : r.content ≠ .streamed → 1 ≤ blocks r.width r.height) {x : Option Buffers} {map' : List Run}
    (hplaced : placeRegion map r = some (x, map')) (epoch : Word) :
    MapOk map' ∧ map'.Perm (recordRuns (newRecord epoch (r, x)) ++ map) := by
  unfold placeRegion at hplaced
  cases hc : r.content with
  | streamed =>
    simp only [hc, Option.some.injEq, Prod.mk.injEq] at hplaced
    obtain ⟨rfl, rfl⟩ := hplaced
    exact ⟨h, .refl _⟩
  | single =>
    have hsize := hsize (by simp [hc])
    simp only [hc] at hplaced
    split at hplaced
    · cases hplaced
    · next a map1 ha =>
      obtain ⟨n, rfl, rfl, hok⟩ := placeBuffer_spec h hsize ha
      obtain ⟨rfl, rfl⟩ := Prod.mk.inj (Option.some.inj hplaced)
      exact ⟨hok, insertRun_perm _ _⟩
  | double =>
    have hsize := hsize (by simp [hc])
    simp only [hc] at hplaced
    split at hplaced
    · cases hplaced
    · next a map1 ha =>
      obtain ⟨n, rfl, rfl, hok⟩ := placeBuffer_spec h hsize ha
      split at hplaced
      · cases hplaced
      · next b map2 hb =>
        obtain ⟨m, rfl, rfl, hok'⟩ := placeBuffer_spec hok hsize hb
        obtain ⟨rfl, rfl⟩ := Prod.mk.inj (Option.some.inj hplaced)
        exact ⟨hok', ((insertRun_perm _ _).trans ((insertRun_perm _ _).cons _)).trans (.swap _ _ _)⟩

/-- An allocation request that is met takes blocks apart from those of the map. -/
theorem allocate_runsApart {map : List Run} (h : MapOk map) {rs : List Region}
    (hsize : ∀ r ∈ rs, r.content ≠ .streamed → 1 ≤ blocks r.width r.height)
    {placed : List (Region × Option Buffers)} (hplaced : allocate map rs = some placed) (epoch : Word) :
    RunsApart (newRuns epoch placed ++ map) := by
  induction rs generalizing map placed with
  | nil =>
    obtain rfl := Option.some.inj hplaced
    simpa [newRuns] using h.runsApart
  | cons r rs ih =>
    unfold allocate at hplaced
    split at hplaced
    · cases hplaced
    · next x map1 hregion =>
      obtain ⟨rest, hrest, rfl⟩ := Option.map_eq_some_iff.mp hplaced
      obtain ⟨hr, hrs⟩ := List.forall_mem_cons.mp hsize
      obtain ⟨hok, hperm⟩ := placeRegion_map h hr hregion epoch
      refine (ih hok hrs hrest).perm ?_
      have hnew : newRuns epoch ((r, x) :: rest) = recordRuns (newRecord epoch (r, x)) ++ newRuns epoch rest := by
        simp [newRuns]
      rw [hnew, List.append_assoc]
      exact (hperm.append_left _).trans (List.perm_append_comm_assoc _ _ _)

/-! ## The store summary (R102) -/

theorem gapFrom_mem {pos : Nat} {map : List Run} (h : OrderedFrom pos map) (hcount : ∀ r ∈ map, 1 ≤ r.count)
    {g : Nat × Nat} (hg : GapFrom pos map g) : g ∈ freeGaps pos map := by
  obtain ⟨hone, hfrom, ⟨hstore, hmeets⟩, hleft, hright⟩ := hg
  obtain ⟨first, len⟩ := g
  dsimp only at hone hfrom hstore hmeets hleft hright
  induction map generalizing pos with
  | nil =>
    have hstart : first = pos := hleft.resolve_right (by simp)
    have hend : first + len = 1536 := hright.resolve_right (by simp)
    rw [freeGaps_nil, if_pos (by omega)]
    simp only [List.mem_singleton, Prod.mk.injEq]
    omega
  | cons r map ih =>
    obtain ⟨hr, hmeets⟩ := List.forall_mem_cons.mp hmeets
    obtain ⟨hr1, hcount⟩ := List.forall_mem_cons.mp hcount
    obtain ⟨hpos, hend⟩ := h.head
    have hlater (x : Run) (hx : x ∈ map) : r.first + r.count ≤ x.first := (h.tail.2 x hx).1
    rw [freeGaps_cons, List.mem_append]
    obtain hbefore | hbehind := hr
    · left
      have hstart : first = pos := hleft.resolve_right (by
        rintro ⟨x, hx, hxend⟩
        obtain rfl | hx := List.mem_cons.mp hx
        · omega
        · have := hlater x hx
          omega)
      have hstop : first + len = r.first := by
        obtain hstop | ⟨x, hx, hxstart⟩ := hright
        · omega
        · obtain rfl | hx := List.mem_cons.mp hx
          · exact hxstart.symm
          · have := hlater x hx
            omega
      rw [if_pos (by omega)]
      simp only [List.mem_singleton, Prod.mk.injEq]
      omega
    · right
      refine ih h.tail hcount hbehind hmeets ?_ ?_
      · obtain hstart | ⟨x, hx, hxend⟩ := hleft
        · omega
        · obtain rfl | hx := List.mem_cons.mp hx
          · exact .inl hxend.symm
          · exact .inr ⟨x, hx, hxend⟩
      · obtain hstop | ⟨x, hx, hxstart⟩ := hright
        · exact .inl hstop
        · obtain rfl | hx := List.mem_cons.mp hx
          · omega
          · exact .inr ⟨x, hx, hxstart⟩

/-- A run that holds blocks stands between two gaps. -/
theorem freeGaps_separated {pos : Nat} {map : List Run} (h : OrderedFrom pos map) (hcount : ∀ r ∈ map, 1 ≤ r.count) :
    (freeGaps pos map).Pairwise (fun g x => g.1 + g.2 < x.1) := by
  induction map generalizing pos with
  | nil =>
    rw [freeGaps_nil]
    split <;> simp
  | cons r map ih =>
    obtain ⟨hr, hrest⟩ := List.forall_mem_cons.mp hcount
    rw [freeGaps_cons, List.pairwise_append]
    refine ⟨by split <;> simp, ih h.tail hrest, fun g hg x hx => ?_⟩
    have hbehind := (gapFrom_of_mem h.tail hx).2.1
    split at hg
    · obtain rfl := List.mem_singleton.mp hg
      dsimp only; omega
    · cases hg

/-- The free gaps of a map are those among its runs, whatever the order they are given in. -/
theorem mem_freeGaps_iff {runs map : List Run} (h : MapOk map) (hp : map.Perm runs) (g : Nat × Nat) :
    g ∈ freeGaps 0 map ↔ FreeGap runs g := by
  have hiff : GapFrom 0 map g ↔ FreeGap runs g := by
    simp only [GapFrom, FreeGap, Fits, hp.mem_iff, Nat.zero_le, true_and]
  rw [← hiff]
  exact ⟨gapFrom_of_mem h.1, gapFrom_mem h.1 h.2⟩

theorem blocksHeld_le {pos : Nat} {map : List Run} (h : OrderedFrom pos map) : pos ≤ 1536 → blocksHeld map + pos ≤ 1536 := by
  induction map generalizing pos with
  | nil => simp [blocksHeld]
  | cons r map ih =>
    intro _
    obtain ⟨hpos, hend⟩ := h.head
    have := ih h.tail hend
    simp only [blocksHeld, List.map_cons, List.sum_cons] at this ⊢
    omega

theorem longestGap_eq_none {gs : List (Nat × Nat)} : longestGap gs = none ↔ gs = [] := by
  cases gs with
  | nil => simp [longestGap]
  | cons g gs =>
    simp only [longestGap, reduceCtorEq, iff_false]
    split
    · simp
    · split <;> simp

/-- The longest gap, and of equal ones the lowest. -/
theorem longestGap_eq_some {gs : List (Nat × Nat)} (hordered : gs.Pairwise (fun g x => g.1 + g.2 < x.1))
    {g : Nat × Nat} (h : longestGap gs = some g) :
    g ∈ gs ∧ ∀ x ∈ gs, x.2 < g.2 ∨ (x.2 = g.2 ∧ g.1 ≤ x.1) := by
  induction gs generalizing g with
  | nil => cases h
  | cons y ys ih =>
    obtain ⟨hy, hys⟩ := List.pairwise_cons.mp hordered
    unfold longestGap at h
    split at h
    · next hnone =>
      obtain rfl := Option.some.inj h
      simp [longestGap_eq_none.mp hnone]
    · next z hz =>
      obtain ⟨hmem, hlongest⟩ := ih hys hz
      have hyz := hy z hmem
      split at h
      · next hle =>
        obtain rfl := Option.some.inj h
        refine ⟨List.mem_cons_self, List.forall_mem_cons.mpr ⟨.inr ⟨rfl, le_rfl⟩, fun x hx => ?_⟩⟩
        have hxz := hlongest x hx
        have hyx := hy x hx
        omega
      · next hlt =>
        obtain rfl := Option.some.inj h
        exact ⟨List.mem_cons_of_mem _ hmem, List.forall_mem_cons.mpr ⟨.inl (by omega), hlongest⟩⟩

/-- The summary reads the map in order, and says the same of the runs in any order. -/
theorem storeSummary_spec {e : Engine} (h : RunsOk e) :
    (storeSummary e.records).held = ((e.records.flatMap recordRuns).map (·.count)).sum
      ∧ (storeSummary e.records).held + (storeSummary e.records).free = 1536
      ∧ ∃ gaps : List (Nat × Nat), gaps.Pairwise (fun g x => g.1 + g.2 < x.1)
        ∧ (∀ g, g ∈ gaps ↔ FreeGap (e.records.flatMap recordRuns) g)
        ∧ (storeSummary e.records).gaps = gaps.length ∧ ((storeSummary e.records).longest = none ↔ gaps = [])
        ∧ ∀ g, (storeSummary e.records).longest = some g →
          g ∈ gaps ∧ ∀ x ∈ gaps, x.2 < g.2 ∨ (x.2 = g.2 ∧ g.1 ≤ x.1) := by
  have hmap := storeMap_mapOk h
  have hperm := storeMap_perm e.records
  have hheld : blocksHeld (storeMap e.records) + 0 ≤ 1536 := blocksHeld_le hmap.1 (by omega)
  have hseparated := freeGaps_separated hmap.1 hmap.2
  refine ⟨(hperm.map _).sum_eq, ?_, freeGaps 0 (storeMap e.records), hseparated, mem_freeGaps_iff hmap hperm, rfl,
    longestGap_eq_none, fun g => longestGap_eq_some hseparated⟩
  have hfree : (storeSummary e.records).free = 1536 - blocksHeld (storeMap e.records) := rfl
  have hheld' : (storeSummary e.records).held = blocksHeld (storeMap e.records) := rfl
  omega

/-! ## The commands that read (R18, R45, R102) -/

theorem slotReadInfo_arrive (l : Link) (s : State) (n : SlotNo) (i : Nat) :
    slotReadInfo n i (arrive l s) = slotReadInfo n i s := by
  simp [slotReadInfo, layoutOf]

theorem tagOfByte_of_range {b : Byte} (hfrom : 1 ≤ b.toNat) (hto : b.toNat ≤ 15) : tagOfByte b = some b.toNat :=
  if_pos ⟨hfrom, hto⟩

theorem tagOfByte_of_out {b : Byte} (h : b.toNat = 0 ∨ 15 < b.toNat) : tagOfByte b = none := if_neg (by omega)

/-- Settles O10: the parameters in range or not, and the record read from the state as it stands. -/
theorem readCommandsAnswerFromState : Obligations.ReadCommandsAnswerFromState := by
  refine ⟨fun e h => storeSummary_spec h,
    fun l tag slot index s h => ⟨_, slotCommand_runs h tag .slotRead _, ?_, fun hbad => ?_, fun n hn hindex => ?_⟩,
    fun l tag s h => ⟨_, slotCommand_runs h tag .postureRead _, ?_, ?_⟩,
    fun l tag region s h => ⟨_, slotCommand_runs h tag .regionStatus _, ?_, fun hbad => ?_, fun hfrom hto =>
      ⟨fun hnone => ?_, fun hsome => ?_⟩⟩⟩
  · exact (arrive_sameBut l s).trans (slotReadEffect_sameBut l tag _ slot index)
  · have hnone : slotReadEffect l tag slot index (arrive l s) = answer l tag .slotRead .badParam .none (arrive l s) := by
      unfold slotReadEffect
      split
      · next n i hn hi =>
        have hslot := slotOfByte_eq_some.mp hn
        have hindex := slotOfByte_eq_some.mp hi
        omega
      · rfl
    rw [hnone]
    exact answersWith_answer rfl tag .slotRead .badParam .none
  · have hi : slotOfByte index = some ⟨index.toNat, by omega⟩ := slotOfByte_of_val rfl
    have hread : slotReadEffect l tag slot index (arrive l s) =
        answer l tag .slotRead .ok (.slotRead (slotReadInfo n index.toNat s)) (arrive l s) := by
      simp only [slotReadEffect, slotOfByte_of_val hn, hi, slotReadInfo_arrive]
    rw [hread]
    exact answersWith_answer rfl tag .slotRead .ok _
  · exact (arrive_sameBut l s).trans (answer_sameBut l tag _ _ _ _)
  · have hinfo : postureReadInfo (arrive l s) = postureReadInfo s := by simp [postureReadInfo]
    rw [hinfo]
    exact answersWith_answer rfl tag .postureRead .ok _
  · exact (arrive_sameBut l s).trans (regionStatusEffect_sameBut l tag _ region)
  · simp only [regionStatusEffect, tagOfByte_of_out hbad]
    exact answersWith_answer rfl tag .regionStatus .badParam .none
  · have hempty : recordsNamed region.toNat s.engine = [] := by simpa [recordsNamed] using hnone
    simp only [regionStatusEffect, tagOfByte_of_range hfrom hto, arrive_engine, hempty, List.isEmpty_nil, if_true]
    exact answersWith_answer rfl tag .regionStatus .noRegion _
  · have hnamed : (recordsNamed region.toNat s.engine).isEmpty = false := by simpa [recordsNamed] using hsome
    simp only [regionStatusEffect, tagOfByte_of_range hfrom hto, arrive_engine, hnamed, Bool.false_eq_true, if_false]
    exact answersWith_answer rfl tag .regionStatus .ok _

end Sys2Proof.Machine
end

section
/-! PROOFS. The laws of the slot table and the transition engine (chapters 1 and 3): what a commit writes, what each
operation of the engine keeps, and that every step keeps them. -/

namespace Sys2Proof.Machine

/-! ## What STAGE-REGION and STAGE-COMMIT let pass (R2, R3, R12 to R15) -/

open Classical in
theorem passes_of_checked {p : Prop} {n : Nat} {e : Except Nat Region} {r : Region}
    (h : (if ¬ p then .error n else e) = .ok r) : p ∧ e = .ok r := by
  by_cases hp : p
  · exact ⟨hp, by simpa [hp] using h⟩
  · simp [hp] at h

theorem allPass_of_checkRegion {record : RegionRecord} {r : Region} (h : checkRegion record = .ok r) :
    r = regionNamed record ∧ ∀ m, m ∈ [1, 2, 3, 4, 5, 6, 7, 8, 9, 11] → fieldPasses record m := by
  rw [checkRegion_eq] at h
  obtain ⟨h1, h⟩ := passes_of_checked h
  obtain ⟨h2, h⟩ := passes_of_checked h
  obtain ⟨h3, h⟩ := passes_of_checked h
  obtain ⟨h4, h⟩ := passes_of_checked h
  obtain ⟨h5, h⟩ := passes_of_checked h
  obtain ⟨h6, h⟩ := passes_of_checked h
  obtain ⟨h7, h⟩ := passes_of_checked h
  obtain ⟨h8, h⟩ := passes_of_checked h
  obtain ⟨h9, h⟩ := passes_of_checked h
  obtain ⟨h11, h⟩ := passes_of_checked h
  exact ⟨(Except.ok.inj h).symm, by simp [*]⟩

theorem regionOk_of_checkRegion {record : RegionRecord} {r : Region} (h : checkRegion record = .ok r) : RegionOk r := by
  obtain ⟨rfl, hpass⟩ := allPass_of_checkRegion h
  have h1 : fieldPasses record 1 := hpass 1 (by simp)
  have h3 : fieldPasses record 3 := hpass 3 (by simp)
  have h5 : fieldPasses record 5 := hpass 5 (by simp)
  have h6 : fieldPasses record 6 := hpass 6 (by simp)
  have h8 : fieldPasses record 8 := hpass 8 (by simp)
  have h9 : fieldPasses record 9 := hpass 9 (by simp)
  refine ⟨h1.1, h1.2, h5.2, h6.1, h6.2.2.1, h6.2.2.2, h8.1, h8.2.2, fun howner => ?_, fun hcontent => ?_⟩
  · exact regionNamed_content_eq_streamed.mpr (h3.2 (regionNamed_owner_eq_none.mp howner))
  · have := h9.2 (regionNamed_content_eq_streamed.mp hcontent)
    simp [regionNamed, this]

theorem pairwise_of_no_pairAt {rel : Region → Region → Prop} {rs : List Region} (h : ∀ i j, ¬ PairAt rel rs i j) :
    rs.Pairwise (fun x y => ¬ rel x y) := by
  rw [List.pairwise_iff_getElem]
  intro i j hi hj hij hxy
  exact h i j ⟨hij, _, _, List.getElem?_eq_getElem hi, List.getElem?_eq_getElem hj, hxy⟩

theorem overlaps_symm (x y : Region) : overlaps x y = overlaps y x := by
  simp only [overlaps, decide_eq_decide]
  constructor <;> rintro ⟨h1, h2, h3, h4⟩ <;> exact ⟨h2, h1, h4, h3⟩

/-- A list that passes STAGE-COMMIT's checks is a layout once sorted (R5). -/
theorem layoutOk_sortRegions {rs : List Region} (hlen : rs.length ≤ 8) (hok : ∀ g ∈ rs, RegionOk g)
    (hapart : firstPair overlaps 0 rs = none) (hdistinct : firstPair sameTag 0 rs = none)
    (hneed : layoutNeed rs ≤ 1536) : layoutOk (sortRegions rs) = true := by
  have hperm := sortRegions_perm rs
  have hoverlap : rs.Pairwise (fun x y => overlaps x y = false) :=
    (pairwise_of_no_pairAt (firstPair_eq_none overlaps_eq_true hapart)).imp fun {x y} hxy => by
      simpa [← overlaps_eq_true] using hxy
  have htag : rs.Pairwise (fun x y => x.tag ≠ y.tag) :=
    (pairwise_of_no_pairAt (firstPair_eq_none sameTag_eq_true hdistinct)).imp id
  refine decide_eq_true ⟨hperm.length_eq.trans_le hlen, fun g hg => hok g (hperm.mem_iff.mp hg),
    hoverlap.perm hperm.symm fun {x y} hxy => (overlaps_symm y x).trans hxy,
    htag.perm hperm.symm fun hxy => hxy.symm, ?_, ?_⟩
  · have hsum : layoutNeed (sortRegions rs) = layoutNeed rs := (hperm.map blockNeed).sum_eq
    exact hsum.trans_le hneed
  · exact (sortRegions_sorted rs).imp fun h => decide_eq_true h

theorem layoutOk_blank : layoutOk Layout.blank.regions = true := rfl

theorem layoutOk_iff (rs : List Region) : layoutOk rs = true ↔
    rs.length ≤ 8 ∧ (∀ g ∈ rs, RegionOk g) ∧ rs.Pairwise (fun x y => overlaps x y = false)
      ∧ rs.Pairwise (fun x y => x.tag ≠ y.tag) ∧ layoutNeed rs ≤ 1536
      ∧ rs.Pairwise (fun x y => sortsBefore x y = true) := decide_eq_true_iff

theorem modPort_congr {s : State} {l : Link} {f g : Port → Port} (h : f (s.port l) = g (s.port l)) :
    s.modPort l f = s.modPort l g := by
  simp [State.modPort, h]

/-! ## Properties that read of a port only whether a SWITCH holds its slot -/

/-- A property that reads of the ports only whether a SWITCH holds each slot is kept by every operation on a port that
leaves that alone. -/
theorem portOps_of_holdsSwitch {P : State → Prop}
    (hP : ∀ l f s, holdsSwitch (f (s.port l)) = holdsSwitch (s.port l) → P s → P (s.modPort l f)) : PortOpsKeep P where
  notifies l n s h := hP l _ s (by
    obtain ⟨-, -, -, hslot, -⟩ := handed_fields n (s.port l)
    exact congrArg (fun x => match x with | some (.switch _) => true | _ => false) hslot) h
  counts l k n s h := hP l _ s rfl h
  comesOnline l s h := hP l _ s rfl h
  responds l tag code st r s _ _ h := hP l _ s rfl h
  finishesWait l st res r s hslot hwait h := by
    have hno : holdsSwitch (s.port l) = false := by
      cases r <;> simp_all [holdsSwitch, Running.isWait]
    have hf : holdsSwitch ((s.port l).finished st res) = holdsSwitch (s.port l) := by
      rw [Port.finished_of_some hslot, hno]
      rfl
    have hrun : finish l st res s = s.modPort l (Port.finished st res) := by
      unfold finish
      simp only [hslot, emptySlot, respond, modPort_modPort]
      exact modPort_congr (Port.finished_of_some hslot st res).symm
    exact hrun ▸ hP l _ s hf h
  emptiesWait l r s hslot hwait h := hP l _ s (by
    cases r <;> simp_all [holdsSwitch, Running.isWait]) h
  startsWait l r s hs hwait _ h := hP l _ s (by
    have hfree := hs.2
    cases r <;> simp_all [holdsSwitch, Running.isWait]) h
  countsDown l tag n s hslot _ h := hP l _ s (by simp [holdsSwitch, hslot]) h
  arms l a s _ h := hP l _ s rfl h
  countsQuiet l s h := hP l _ s (by unfold countQuiet; split <;> rfl) h
  setsQuiet l n s _ _ _ h := hP l _ s rfl h
  clearsCounters l s h := hP l _ s rfl h
  fetches l n s h := hP l _ s rfl h
  sends l r rs s _ h := hP l _ s rfl h
  streams l q s _ h := hP l _ s rfl h

/-! ## The laws of the slot table and the engine -/

/-- The laws of the slot table and of the engine. -/
abbrev SlotEngineOk (s : State) : Prop := SlotsOk s ∧ EngineOk s

/-- They read the slot table, the engine but its records, and whether a SWITCH holds each slot. -/
theorem SlotEngineOk.congr {s t : State} (h : SlotEngineOk s) (hslots : t.slots = s.slots)
    (hengine : ∃ rs, t.engine = { s.engine with records := rs })
    (hports : ∀ l, holdsSwitch (t.port l) = holdsSwitch (s.port l)) : SlotEngineOk t := by
  obtain ⟨rs, hengine⟩ := hengine
  obtain ⟨hs, hle, hone, htop, hpend, hact, ha, hb⟩ := h
  refine ⟨?_, ?_⟩
  · unfold SlotsOk
    rw [hslots]
    exact hs
  · unfold EngineOk PendingOk
    rw [hslots, hengine, hports, hports]
    exact ⟨hle, hone, htop, hpend, hact, ha, hb⟩

theorem SlotEngineOk.of_records {s : State} (h : SlotEngineOk s) (rs : List RuntimeRecord) :
    SlotEngineOk { s with engine := { s.engine with records := rs } } :=
  h.congr rfl ⟨rs, rfl⟩ fun _ => rfl

theorem SlotEngineOk.of_sameBut {s t : State} {c : List Part} (h : SlotEngineOk s) (ht : SameBut c s t)
    (hs : Part.slots ∉ c) (he : Part.engine ∉ c) (hp : ∀ l, Part.port l ∉ c) : SlotEngineOk t :=
  h.congr (ht.slots hs) ⟨s.engine.records, ht.engine he⟩ fun l => congrArg holdsSwitch (ht.port l (hp l))

/-- With nothing pending no SWITCH holds a slot, and the rest is the engine's own. -/
theorem SlotEngineOk.steady {s t : State} (h : SlotEngineOk s) (hslots : t.slots = s.slots)
    (hpend : t.engine.pending = none) (hle : t.engine.activeEpoch ≤ t.engine.epochCounter)
    (hframes : t.engine.ackFrames = s.engine.ackFrames)
    (hact : ∀ n ∈ t.engine.active.slot, (s.slots.slots.get n).generation = t.engine.active.generation
      ∧ (s.slots.slots.get n).backdrop = t.engine.active.backdrop)
    (hports : ∀ l, holdsSwitch (t.port l) = false) : SlotEngineOk t := by
  obtain ⟨hs, -, hone, htop, -, -, -, -⟩ := h
  have hno (l : Link) : requesterIs l t.engine = false := by simp [requesterIs, hpend]
  refine ⟨?_, hle, hframes ▸ hone, hframes ▸ htop, ?_, ?_, ?_, ?_⟩
  · unfold SlotsOk
    rw [hslots]
    exact hs
  · simp [hpend]
  · rw [hslots]
    exact hact
  · rw [hports, hno]
  · rw [hports, hno]

theorem handed_holdsSwitch (n : Notice) (p : Port) : holdsSwitch (handed n p) = holdsSwitch p := by
  obtain ⟨-, -, -, hslot, -⟩ := handed_fields n p
  simp only [holdsSwitch, hslot]

theorem EngineOk.holdsSwitch_eq {s : State} (h : EngineOk s) (l : Link) :
    holdsSwitch (s.port l) = requesterIs l s.engine := by
  obtain ⟨-, -, -, -, -, ha, hb⟩ := h
  cases l
  · exact ha
  · exact hb

theorem EngineOk.not_holdsSwitch {s : State} (h : EngineOk s) {p : Pending} (hp : s.engine.pending = some p) {l : Link}
    (hl : p.requester ≠ some l) : holdsSwitch (s.port l) = false := by
  rw [h.holdsSwitch_eq]
  simpa [requesterIs, hp] using hl

theorem finished_not_holdsSwitch (p : Port) (st : Status) (res : Results) : holdsSwitch (p.finished st res) = false := by
  cases hs : p.slot with
  | none => simp [Port.finished_of_none hs, holdsSwitch, hs]
  | some r =>
    rw [Port.finished_of_some hs]
    rfl

theorem withdraw_not_holdsSwitch {s : State} (h : EngineOk s) {p : Pending} (hp : s.engine.pending = some p)
    (reason : WithdrawReason) (quiet : Bool) (l : Link) : holdsSwitch ((withdraw reason quiet s).port l) = false := by
  rw [withdraw_port hp]
  unfold withdrawnPort
  dsimp only
  split
  · split
    · rfl
    · exact finished_not_holdsSwitch _ _ _
  · next hl => exact (handed_holdsSwitch _ _).trans (h.not_holdsSwitch hp hl)

theorem SlotEngineOk.withdraw {s : State} (h : SlotEngineOk s) (reason : WithdrawReason) (quiet : Bool) :
    SlotEngineOk (withdraw reason quiet s) := by
  cases hp : s.engine.pending with
  | none =>
    have hsame : Machine.withdraw reason quiet s = s := by simp [Machine.withdraw, hp]
    exact hsame.symm ▸ h
  | some p =>
    have hengine : (Machine.withdraw reason quiet s).engine = withdrawnEngine s.engine := by
      rw [withdraw_engine, if_neg (by simp [hp])]
    obtain ⟨hs, hle, -, -, -, hact, -, -⟩ := id h
    refine h.steady ((withdraw_sameBut reason quiet s).slots (by simp)) (by rw [hengine]; rfl) (by rw [hengine]; exact hle)
      (by rw [hengine]; rfl) (by rw [hengine]; exact hact) (withdraw_not_holdsSwitch h.2 hp reason quiet)

theorem epochWaited_holdsSwitch {p : Port} (h : holdsSwitch p = false) (res : Results) :
    holdsSwitch (p.epochWaited res) = false := by
  unfold Port.epochWaited
  split
  · rfl
  · exact h

theorem makeSwitch_not_holdsSwitch {s : State} (h : EngineOk s) {p : Pending} (hp : s.engine.pending = some p)
    (late : LinkSet) (l : Link) : holdsSwitch ((makeSwitch late s).port l) = false := by
  rw [makeSwitch_port hp]
  refine epochWaited_holdsSwitch ?_ _
  split
  · exact finished_not_holdsSwitch _ _ _
  · next hl =>
    have hslot := toldOfSwitch_slot late p s l
    have := h.not_holdsSwitch hp hl
    simpa only [holdsSwitch, hslot] using this

theorem SlotEngineOk.makeSwitch {s : State} (h : SlotEngineOk s) (late : LinkSet) :
    SlotEngineOk (makeSwitch late s) := by
  cases hp : s.engine.pending with
  | none =>
    have hsame : Machine.makeSwitch late s = s := by simp [Machine.makeSwitch, hp]
    exact hsame.symm ▸ h
  | some p =>
    have hengine := makeSwitch_engine hp late
    obtain ⟨-, -, -, -, hpend, -, -, -⟩ := id h
    obtain ⟨hepoch, -, -, -, -, -, -, hlayout⟩ := hpend p hp
    refine h.steady ((makeSwitch_sameBut late s).slots (by simp)) (by rw [hengine]; rfl)
      (by rw [hengine, BitVec.le_def]; exact (congrArg BitVec.toNat hepoch).le) (by rw [hengine]; rfl) ?_
      (makeSwitch_not_holdsSwitch h.2 hp late)
    rw [hengine]
    rintro n ⟨⟩
    rw [hlayout]
    exact ⟨rfl, rfl⟩

/-! ## A request (R51, R54) -/

/-- A request that is announced, and what it announces. -/
theorem steadyRequest_cases (n : SlotNo) (cause : Cause) (who : Option Link) (s : State) :
    ((steadyRequest n cause who s).1 = s ∧ (steadyRequest n cause who s).2 ≠ .announced)
      ∨ ∃ placed, s.engine.epochCounter ≠ lastEpoch
        ∧ allocate (storeMap s.engine.records)
            (uncarried (activeRecords s.engine) (s.slots.slots.get n).regions) = some placed
        ∧ steadyRequest n cause who s = (announce n cause who (s.slots.slots.get n) placed s, .announced) := by
  unfold steadyRequest
  split
  · exact .inl ⟨rfl, nofun⟩
  · next hcounter =>
    dsimp only
    split
    · exact .inl ⟨rfl, nofun⟩
    · next placed hplaced => exact .inr ⟨placed, hcounter, hplaced, rfl⟩

theorem lt_succ_of_ne_lastEpoch {e : Word} (h : e ≠ lastEpoch) : e < e + 1 := by
  have hlast : e.toNat ≠ 0xFFFFFFFF := fun he => h (BitVec.eq_of_toNat_eq he)
  have := e.isLt
  have hsucc : (e + 1).toNat = (e.toNat + 1) % 2 ^ 32 := rfl
  rw [BitVec.lt_def, hsucc]
  omega

/-- What an announcement leaves, but for the requester's slot. -/
theorem pendingOk_announced {s : State} (h : EngineOk s) (hcounter : s.engine.epochCounter ≠ lastEpoch) {n : SlotNo}
    (hn : s.engine.active.slot ≠ some n) (cause : Cause) (who : Option Link)
    (placed : List (Region × Option Buffers)) {t : State}
    (ht : t.engine = announcedEngine (pendingFor n cause who (s.slots.slots.get n) s) placed s.engine)
    (hslots : t.slots = s.slots) : PendingOk t (pendingFor n cause who (s.slots.slots.get n) s) := by
  obtain ⟨hle, hone, htop, -⟩ := h
  have hlt := lt_succ_of_ne_lastEpoch hcounter
  unfold PendingOk
  rw [ht, hslots]
  refine ⟨rfl, ?_, hn, hone, htop, ⟨nofun, nofun⟩, ?_, rfl⟩
  · rw [BitVec.lt_def] at hlt ⊢
    rw [BitVec.le_def] at hle
    exact Nat.lt_of_le_of_lt hle hlt
  · simp only [pendingFor]
    generalize ackSetFor s (s.slots.slots.get n).regions = x
    obtain ⟨a, b⟩ := x
    cases a <;> cases b <;> simp [nonempty]

theorem SlotEngineOk.announced {s t : State} (h : SlotEngineOk s) (hcounter : s.engine.epochCounter ≠ lastEpoch)
    {n : SlotNo} (hn : s.engine.active.slot ≠ some n) (cause : Cause) (who : Option Link)
    (placed : List (Region × Option Buffers))
    (ht : t.engine = announcedEngine (pendingFor n cause who (s.slots.slots.get n) s) placed s.engine)
    (hslots : t.slots = s.slots) (hports : ∀ l, holdsSwitch (t.port l) = (who == some l)) : SlotEngineOk t := by
  have hpending := pendingOk_announced h.2 hcounter hn cause who placed ht hslots
  obtain ⟨hs, hle, hone, htop, -, hact, -, -⟩ := h
  have hlt := lt_succ_of_ne_lastEpoch hcounter
  have hp : t.engine.pending = some (pendingFor n cause who (s.slots.slots.get n) s) := by rw [ht]; rfl
  refine ⟨?_, ?_, by rw [ht]; exact hone, by rw [ht]; exact htop, ?_, ?_, ?_, ?_⟩
  · unfold SlotsOk
    rw [hslots]
    exact hs
  · rw [ht]
    rw [BitVec.lt_def] at hlt
    rw [BitVec.le_def] at hle ⊢
    exact Nat.le_of_lt (Nat.lt_of_le_of_lt hle hlt)
  · rintro q hq
    obtain rfl := Option.some.inj (hp.symm.trans hq)
    exact hpending
  · rw [ht, hslots]
    exact hact
  · rw [hports]
    simp [requesterIs, hp, pendingFor]
  · rw [hports]
    simp [requesterIs, hp, pendingFor]

theorem SlotEngineOk.not_holdsSwitch {s : State} (h : SlotEngineOk s) (hp : s.engine.pending = none) (l : Link) :
    holdsSwitch (s.port l) = false := by
  rw [h.2.holdsSwitch_eq]
  simp [requesterIs, hp]

theorem SlotEngineOk.steadyRequest {s : State} (h : SlotEngineOk s) (hp : s.engine.pending = none) {n : SlotNo}
    (hn : s.engine.active.slot ≠ some n) (cause : Cause) : SlotEngineOk (steadyRequest n cause none s).1 := by
  obtain ⟨hsame, -⟩ | ⟨placed, hcounter, -, hrun⟩ := steadyRequest_cases n cause none s
  · exact hsame.symm ▸ h
  · rw [hrun]
    refine h.announced hcounter hn cause none placed rfl
      ((announce_sameBut n cause none _ placed s).slots (by simp)) fun l => ?_
    rw [announce_port, handed_holdsSwitch, h.not_holdsSwitch hp]
    rfl

/-- A SWITCH that is announced holds the slot of the requesting link alone (R64). -/
theorem SlotEngineOk.holdSwitch {s u : State} (h : SlotEngineOk s) (hp : s.engine.pending = none) {n : SlotNo}
    (hn : s.engine.active.slot ≠ some n) {l : Link}
    (hu : Machine.steadyRequest n (.switchBy l) (some l) s = (u, .announced)) (tag : Byte) :
    SlotEngineOk (holdSwitch l tag u) := by
  obtain ⟨-, hrefused⟩ | ⟨placed, hcounter, -, hrun⟩ := steadyRequest_cases n (.switchBy l) (some l) s
  · rw [hu] at hrefused
    exact absurd rfl hrefused
  · obtain rfl := congrArg Prod.fst (hu.symm.trans hrun)
    refine h.announced hcounter hn (.switchBy l) (some l) placed rfl
      ((announce_sameBut n (.switchBy l) (some l) (s.slots.slots.get n) placed s).slots (by simp)) fun m => ?_
    by_cases hm : m = l
    · subst hm
      simp [Machine.holdSwitch, holdsSwitch]
    · rw [Machine.holdSwitch, port_modPort_ne _ _ _ hm, announce_port, handed_holdsSwitch, h.not_holdsSwitch hp]
      simpa using Ne.symm hm

/-! ## The acknowledgements (R56, R57) -/

/-- A pending transition changed in its window, its acknowledgements and its requester alone, within their laws. -/
theorem SlotEngineOk.rewritten {s t : State} (h : SlotEngineOk s) {p : Pending} (hp : s.engine.pending = some p)
    {who : Option Link} {acked : LinkSet} {w : Nat} {armed : Bool} {rs : List RuntimeRecord}
    (ht : t.engine = { s.engine with
      pending := some { p with requester := who, acked := acked, window := w, armed := armed }, records := rs })
    (hslots : t.slots = s.slots)
    (hw : 1 ≤ w ∧ w ≤ 15) (hsub : SubLinks acked p.ackSet) (harmed : armed = true ↔ acked = p.ackSet)
    (hports : ∀ l, holdsSwitch (t.port l) = (who == some l)) : SlotEngineOk t := by
  obtain ⟨hs, hle, hone, htop, hpend, hact, -, -⟩ := h
  obtain ⟨hepoch, hlt, hslot, -, -, -, -, hlayout⟩ := hpend p hp
  have hr (l : Link) : requesterIs l t.engine = (who == some l) := by rw [ht]; rfl
  refine ⟨by unfold SlotsOk; rw [hslots]; exact hs, by rw [ht]; exact hle,
    by rw [ht]; exact hone, by rw [ht]; exact htop, ?_, by rw [ht, hslots]; exact hact, ?_, ?_⟩
  · rw [ht]
    rintro q ⟨⟩
    unfold PendingOk
    rw [ht, hslots]
    exact ⟨hepoch, hlt, hslot, hw.1, hw.2, hsub, harmed, hlayout⟩
  · rw [hports, hr]
  · rw [hports, hr]

theorem SlotEngineOk.holdsSwitch_pending {s : State} (h : SlotEngineOk s) {p : Pending}
    (hp : s.engine.pending = some p) (l : Link) : holdsSwitch (s.port l) = (p.requester == some l) := by
  rw [h.2.holdsSwitch_eq]
  simp [requesterIs, hp]

/-- An acknowledgement joins the acknowledged set, and the state is ARMED exactly when that is complete. -/
theorem acknowledge_laws {p : Pending} (hsub : SubLinks p.acked p.ackSet) (harmed : p.armed = true ↔ p.acked = p.ackSet)
    (l : Link) : ∃ acked armed, acknowledge l p = { p with acked := acked, armed := armed }
      ∧ SubLinks acked p.ackSet ∧ (armed = true ↔ acked = p.ackSet) := by
  unfold acknowledge
  split
  · next hmember =>
    refine ⟨_, _, rfl, ?_, ?_⟩
    · obtain ⟨ha, hb⟩ := hsub
      cases l
      · exact ⟨fun _ => hmember, hb⟩
      · exact ⟨ha, fun _ => hmember⟩
    · rw [Bool.or_eq_true, decide_eq_true_iff, harmed]
      refine ⟨fun h => h.elim (fun hall => ?_) id, .inr⟩
      rw [hall, ← hmember]
      exact PerLink.set_get _ l
  · exact ⟨_, _, rfl, hsub, harmed⟩

/-- A PORT-RESET withdraws its link's acknowledgement, and with it ARMED. -/
theorem withdrawAck_laws {p : Pending} (hsub : SubLinks p.acked p.ackSet) (harmed : p.armed = true ↔ p.acked = p.ackSet)
    (l : Link) : ∃ acked armed, withdrawAck l p =
        { p with
          requester := if p.requester = some l then none else p.requester, acked := acked, armed := armed }
      ∧ SubLinks acked p.ackSet ∧ (armed = true ↔ acked = p.ackSet) := by
  unfold withdrawAck
  dsimp only
  split
  · next hacked =>
    have hmember : p.ackSet.get l = true := by
      obtain ⟨ha, hb⟩ := hsub
      cases l
      · exact ha hacked
      · exact hb hacked
    have hnonempty : nonempty p.ackSet = true := by
      cases l <;> simp_all [nonempty, PerLink.get]
    have hmissing : p.acked.set l false ≠ p.ackSet := fun h => by
      have := congrArg (PerLink.get · l) h
      simp [hmember] at this
    refine ⟨_, _, rfl, ?_, iff_of_false (by simp [hnonempty]) hmissing⟩
    obtain ⟨ha, hb⟩ := hsub
    cases l
    · exact ⟨nofun, hb⟩
    · exact ⟨ha, nofun⟩
  · exact ⟨_, _, rfl, hsub, harmed⟩

/-! ## The slot table's writes (R9 to R25) -/

theorem stagingOk_get {s : State} (h : SlotsOk s) (l : Link) : StagingOk (s.slots.staging.get l) := by
  obtain ⟨-, -, ha, hb⟩ := h
  cases l
  · exact ha
  · exact hb

theorem stagingOk_none : StagingOk none := by rintro st ⟨⟩

theorem stagingOk_empty (n : SlotNo) (backdrop : Colour) :
    StagingOk (some { slot := n, backdrop := backdrop, records := [] }) := by
  rintro st ⟨⟩
  exact ⟨Nat.zero_le _, by simp⟩

theorem stagingOk_append {st : Staging} (h : st.records.length ≤ 8 ∧ ∀ g ∈ st.records, RegionOk g)
    (hroom : st.records.length < 8) {r : Region} (hr : RegionOk r) :
    StagingOk (some { st with records := st.records ++ [r] }) := by
  rintro x ⟨⟩
  refine ⟨by simpa using hroom, fun g hg => ?_⟩
  obtain hg | hg := List.mem_append.mp hg
  · exact h.2 g hg
  · exact List.mem_singleton.mp hg ▸ hr

theorem SlotEngineOk.setStaging {s : State} (h : SlotEngineOk s) (l : Link) {x : Option Staging} (hx : StagingOk x) :
    SlotEngineOk (setStaging l x s) := by
  obtain ⟨⟨hs, hrange, ha, hb⟩, hengine⟩ := h
  cases l
  · exact ⟨⟨hs, hrange, hx, hb⟩, hengine⟩
  · exact ⟨⟨hs, hrange, ha, hx⟩, hengine⟩

theorem slotUse_eq_none {e : Engine} {n : SlotNo} (h : slotUse e n = .none) :
    e.active.slot ≠ some n ∧ ∀ p ∈ e.pending, p.slot ≠ n := by
  unfold slotUse at h
  split_ifs at h with hact hpend
  refine ⟨hact, fun p hp hn => hpend ?_⟩
  rw [pendingSlot, Option.mem_def.mp hp, ← hn]
  rfl

theorem SlotEngineOk.setLayout {s : State} (h : SlotEngineOk s) {n : SlotNo} (hunused : slotUse s.engine n = .none)
    {x : Layout} (hx : layoutOk x.regions = true) : SlotEngineOk (setLayout n x s) := by
  obtain ⟨⟨hs, hrange, ha, hb⟩, hle, hone, htop, hpend, hact, hsa, hsb⟩ := h
  obtain ⟨hactive, hpending⟩ := slotUse_eq_none hunused
  have hother {m : SlotNo} (hm : m ≠ n) : (Machine.setLayout n x s).slots.slots.get m = s.slots.slots.get m := by
    rw [setLayout_get, if_neg hm]
  refine ⟨⟨fun m => ?_, hrange, ha, hb⟩, hle, hone, htop, fun p hp => ?_, fun m hm => ?_, hsa, hsb⟩
  · rw [setLayout_get]
    split
    · exact hx
    · exact hs m
  · obtain ⟨hepoch, hlt, hslot, hwin, hwin', hsub, harmed, hlayout⟩ := hpend p hp
    exact ⟨hepoch, hlt, hslot, hwin, hwin', hsub, harmed, (hother (hpending p hp)).trans hlayout⟩
  · rw [hother fun hmn => hactive (hmn ▸ hm)]
    exact hact m hm

/-- A PORT-RESET forgets its link's request and acknowledgement, and empties its slot. -/
theorem SlotEngineOk.portReset {s : State} (h : SlotEngineOk s) (l : Link) : SlotEngineOk (portResetEffects l s) := by
  have h0 := h.setStaging l stagingOk_none
  have hreset : holdsSwitch ((portResetEffects l s).port l) = false := by
    simp [portResetEffects, State.port, resetPort, holdsSwitch]
  have hother {m : Link} (hm : m ≠ l) : (portResetEffects l s).port m = s.port m := PerLink.get_set_ne _ hm _
  cases hp : s.engine.pending with
  | none =>
    obtain ⟨-, hle, -, -, -, hact, -, -⟩ := id h
    refine h0.steady rfl (by simp [portResetEffects, portResetEngine, hp]) hle rfl hact fun m => ?_
    by_cases hm : m = l
    · exact hm ▸ hreset
    · rw [hother hm]
      exact h.not_holdsSwitch hp m
  | some p =>
    obtain ⟨-, -, -, -, hpend, -⟩ := id h
    obtain ⟨-, -, -, hone, hwin, hsub, harmed, -⟩ := hpend p hp
    obtain ⟨acked, armed, heq, hsub', harmed'⟩ := withdrawAck_laws hsub harmed l
    refine h0.rewritten (p := p) hp
      (who := if p.requester = some l then none else p.requester) (rs := s.engine.records.map (closeStreamed l))
      (by simp [portResetEffects, portResetEngine, hp, heq]) rfl ⟨hone, hwin⟩ hsub' harmed' fun m => ?_
    by_cases hm : m = l
    · subst hm
      rw [hreset]
      split_ifs <;> simp_all
    · rw [hother hm, h.holdsSwitch_pending hp m]
      split_ifs with hl
      · simpa [hl] using Ne.symm hm
      · rfl

theorem engineOk_fresh {n : Nat} (hone : 1 ≤ n) (htop : n ≤ 15) {s : State} (hs : s.engine = Engine.fresh n)
    (hports : ∀ l, (s.port l).slot = none) : EngineOk s := by
  unfold EngineOk
  rw [hs]
  refine ⟨BitVec.le_refl _, hone, htop, by simp [Engine.fresh], by simp [Engine.fresh, ActiveLayout.empty], ?_, ?_⟩
  · simp [holdsSwitch, hports, requesterIs, Engine.fresh]
  · simp [holdsSwitch, hports, requesterIs, Engine.fresh]

/-- An entry of a report changes the contacts, and may hand its link a notice. -/
theorem applyEntry_eq (c : TouchId) (k : TouchKind) (tx ty : Nat) (s : State) :
    ∃ x, applyEntry c k tx ty s = { s with touch := x }
      ∨ ∃ l n, applyEntry c k tx ty s = notify l n { s with touch := x } := by
  unfold applyEntry
  dsimp only
  split
  · exact ⟨s.touch, .inl rfl⟩
  · unfold startContact
    split
    · exact ⟨_, .inl rfl⟩
    · split
      · exact ⟨_, .inl rfl⟩
      · exact ⟨_, .inr ⟨_, _, rfl⟩⟩
  · exact ⟨_, .inr ⟨_, _, rfl⟩⟩
  · exact ⟨_, .inr ⟨_, _, rfl⟩⟩
  · exact ⟨_, .inl rfl⟩
  · exact ⟨s.touch, .inl rfl⟩

theorem SlotEngineOk.modPort {s : State} (h : SlotEngineOk s) {l : Link} {f : Port → Port}
    (hf : holdsSwitch (f (s.port l)) = holdsSwitch (s.port l)) : SlotEngineOk (s.modPort l f) :=
  h.congr rfl ⟨s.engine.records, rfl⟩ fun m => by
    by_cases hm : m = l
    · subst hm
      rw [port_modPort, hf]
    · rw [port_modPort_ne s l f hm]

theorem portOps_keep_slotEngineOk : PortOpsKeep SlotEngineOk :=
  portOps_of_holdsSwitch fun _ _ _ hf h => h.modPort hf

theorem blockOps_keep_slotEngineOk : BlockOpsKeep SlotEngineOk where
  frames s t hst h := h.of_sameBut hst (by simp) (by simp) (by simp)
  touches x s _ h := h
  entries c k tx ty s h := by
    obtain ⟨x, heq | ⟨l, n, heq⟩⟩ := applyEntry_eq c k tx ty s
    · exact heq ▸ h
    · exact heq ▸ portOps_keep_slotEngineOk.notifies l n { s with touch := x } h
  cancels s h := by
    obtain ⟨hframe, -, -, hports⟩ := cancelContacts_spec .cutoff [] s
    refine h.congr (hframe.slots (by simp)) ⟨s.engine.records, hframe.engine (by simp)⟩ fun l => ?_
    rw [hports]
    obtain ⟨-, -, -, hslot, -⟩ := handedAll_fields
      (cancelsFor l .cutoff s.engine.activeEpoch [] s.touch.contacts) (s.port l)
    simp only [holdsSwitch, hslot]
  withdraws reason quiet s h := h.withdraw reason quiet
  requests n cause s hp hn h := h.steadyRequest hp hn cause
  holdsSwitch l tag n u s _ hp hn hu h := h.holdSwitch hp hn hu tag
  switches late s h := h.makeSwitch late
  windows n p s hp hone hle h := by
    obtain ⟨-, -, -, -, hpend, -⟩ := id h
    obtain ⟨-, -, -, -, hwin, hsub, harmed, -⟩ := hpend p hp
    exact h.rewritten hp (rs := s.engine.records) (by simp [setWindow, hp]) rfl ⟨hone, hle.trans hwin⟩ hsub harmed
      (h.holdsSwitch_pending hp)
  acks l p s hp h := by
    obtain ⟨-, -, -, -, hpend, -⟩ := id h
    obtain ⟨-, -, -, hone, hwin, hsub, harmed, -⟩ := hpend p hp
    obtain ⟨acked, armed, heq, hsub', harmed'⟩ := acknowledge_laws hsub harmed l
    exact h.rewritten hp (rs := s.engine.records) (by rw [heq]) rfl ⟨hone, hwin⟩ hsub' harmed' (h.holdsSwitch_pending hp)
  setsAckWindow n s hone htop h := by
    obtain ⟨hs, hle, -, -, hpend, hact, ha, hb⟩ := h
    exact ⟨hs, hle, hone, htop, hpend, hact, ha, hb⟩
  opensStaging l n backdrop s h := h.setStaging l (stagingOk_empty n backdrop)
  stages l st record r s hst hr hroom h :=
    h.setStaging l (stagingOk_append (stagingOk_get h.1 l st hst) hroom (regionOk_of_checkRegion hr))
  closesStaging l s h := h.setStaging l stagingOk_none
  commits l st s hst hunused hapart hdistinct hneed h := by
    obtain ⟨hlen, hok⟩ := stagingOk_get h.1 l st hst
    exact (h.setLayout hunused (layoutOk_sortRegions hlen hok hapart hdistinct hneed)).setStaging l stagingOk_none
  setsRange low high outside s hle h := by
    obtain ⟨⟨hs, -, hstaging⟩, hengine⟩ := h
    exact ⟨⟨hs, hle, hstaging⟩, hengine⟩
  setsFreeze f s h := h
  flips s h := h.of_records _
  clears l t w s h := h.of_records _
  stores l r p s _ _ h := by
    obtain heq | ⟨store, f, heq⟩ := storeLine_writes l r p s
    · exact heq ▸ portOps_keep_slotEngineOk.counts l _ _ s h
    · exact heq ▸ h.of_records _
  begins l r s _ _ h := h.of_records _
  ends l r s _ _ _ h := by
    unfold endFrame
    split <;> exact h.of_records _
  opensGate l r q s _ _ _ _ _ h := h.of_records _
  resetsPort l s _ h := h.portReset l
  powersOn s _ := by
    refine ⟨⟨fun n => ?_, (by decide : (0 : SlotNo) ≤ 7), stagingOk_none, stagingOk_none⟩,
      engineOk_fresh (by decide) (by decide) rfl ?_⟩
    · have hblank : (powerOn s).slots.slots.get n = Layout.blank := get_replicate _ n
      exact hblank ▸ layoutOk_blank
    · intro l
      cases l <;> rfl
  resets s h := by
    obtain ⟨⟨hs, hrange, -, -⟩, -, hone, htop, -⟩ := h
    refine ⟨⟨hs, hrange, stagingOk_none, stagingOk_none⟩, engineOk_fresh hone htop rfl fun l => ?_⟩
    cases l <;> rfl

/-- Settles O57: the engine's operations keep its laws, and a SWITCH enters and leaves a slot with its transition. -/
theorem stepKeepsSlotAndEngineLaws : Obligations.StepKeepsSlotAndEngineLaws :=
  fun _ _ hs he ht => (stepKeeps_of_ops portOps_keep_slotEngineOk blockOps_keep_slotEngineOk).step
    (P := SlotEngineOk) ⟨hs, he⟩ ht

end Sys2Proof.Machine
end

section
/-! PROOFS. The law of the region store (section 4.1): every operation keeps the blocks that the records hold, gives some
up, or takes blocks that no record holds. -/

namespace Sys2Proof.Machine

/-! ## The blocks that buffers hold -/

/-- The blocks of a buffer: the first and the count. -/
def Buffer.span (b : Buffer) : Nat × Nat := (b.first, b.count)

/-- The blocks that a record's buffers hold, front and then back. -/
def spans (x : Option Buffers) : List (Nat × Nat) := x.toList.flatMap (fun b => (bufferList b).map Buffer.span)

/-- The blocks that the records hold, record by record. -/
def heldSpans (rs : List RuntimeRecord) : List (Nat × Nat) := rs.flatMap (fun r => spans r.buffers)

/-- Two stretches of blocks share none. -/
abbrev SpanApart (x y : Nat × Nat) : Prop := x.1 + x.2 ≤ y.1 ∨ y.1 + y.2 ≤ x.1

theorem SpanApart.symm {x y : Nat × Nat} (h : SpanApart x y) : SpanApart y x := h.elim .inr .inl

/-- No two of some stretches share a block, and each lies in the store. -/
abbrev SpansApart (l : List (Nat × Nat)) : Prop :=
  l.Pairwise SpanApart ∧ ∀ x ∈ l, 1 ≤ x.2 ∧ x.1 + x.2 ≤ 1536

theorem SpansApart.perm {xs ys : List (Nat × Nat)} (h : SpansApart xs) (hp : xs.Perm ys) : SpansApart ys :=
  ⟨h.1.perm hp (fun hxy => SpanApart.symm hxy), fun x hx => h.2 x (hp.mem_iff.mpr hx)⟩

theorem SpansApart.sublist {xs ys : List (Nat × Nat)} (h : SpansApart xs) (hs : ys.Sublist xs) : SpansApart ys :=
  ⟨h.1.sublist hs, fun x hx => h.2 x (hs.subset hx)⟩

theorem recordRuns_spans (r : RuntimeRecord) : (recordRuns r).map (fun x => (x.first, x.count)) = spans r.buffers := by
  unfold recordRuns spans
  cases r.buffers with
  | none => rfl
  | some b =>
    simp only [Option.toList_some, List.flatMap_singleton, List.map_map]
    rfl

theorem flatMap_recordRuns_spans (rs : List RuntimeRecord) :
    (rs.flatMap recordRuns).map (fun x => (x.first, x.count)) = heldSpans rs := by
  simp only [List.map_flatMap, recordRuns_spans, heldSpans]

theorem runsApart_iff (runs : List Run) : RunsApart runs ↔ SpansApart (runs.map (fun x => (x.first, x.count))) := by
  simp only [RunsApart, SpansApart, List.pairwise_map, List.forall_mem_map]

/-- The law of the runs speaks of the blocks alone. -/
theorem runsOk_iff (e : Engine) : RunsOk e ↔ SpansApart (heldSpans e.records) :=
  (runsApart_iff _).trans (by rw [flatMap_recordRuns_spans])

theorem heldSpans_map {change : RuntimeRecord → RuntimeRecord}
    (h : ∀ r, (spans (change r).buffers).Perm (spans r.buffers)) (rs : List RuntimeRecord) :
    (heldSpans (rs.map change)).Perm (heldSpans rs) := by
  unfold heldSpans
  rw [List.flatMap_map]
  exact List.Perm.flatMap_left rs fun r _ => h r

theorem heldSpans_append (xs ys : List RuntimeRecord) : heldSpans (xs ++ ys) = heldSpans xs ++ heldSpans ys :=
  List.flatMap_append

/-- A change of the records that keeps the blocks of each keeps the law. -/
theorem RunsOk.map {e f : Engine} (h : RunsOk e) {change : RuntimeRecord → RuntimeRecord}
    (hrecords : f.records = e.records.map change) (hspans : ∀ r, (spans (change r).buffers).Perm (spans r.buffers)) :
    RunsOk f := by
  rw [runsOk_iff] at h ⊢
  exact hrecords ▸ h.perm (heldSpans_map hspans e.records).symm

theorem RunsOk.of_records {e f : Engine} (h : RunsOk e) (hrecords : f.records = e.records) : RunsOk f := by
  unfold RunsOk
  rw [hrecords]
  exact h

/-! ## What the operations on a record leave of its blocks -/

theorem spans_modBuffers {f : Buffers → Buffers}
    (h : ∀ b, ((bufferList (f b)).map Buffer.span).Perm ((bufferList b).map Buffer.span)) (r : RuntimeRecord) :
    (spans (modBuffers f r).buffers).Perm (spans r.buffers) := by
  unfold modBuffers spans
  cases r.buffers with
  | none => exact .refl _
  | some b => simpa using h b

theorem openGate_buffers (r : RuntimeRecord) : (openGate r).buffers = r.buffers := by
  unfold openGate
  split <;> rfl

theorem spans_clearRows_back (b : Buffers) :
    (b.back.map clearRows).toList.map Buffer.span = b.back.toList.map Buffer.span := by
  cases b.back <;> rfl

theorem spans_flipBuffers (b : Buffers) :
    ((bufferList (flipBuffers b)).map Buffer.span).Perm ((bufferList b).map Buffer.span) := by
  unfold flipBuffers bufferList
  cases hb : b.back with
  | none => simp [hb]
  | some k => exact .swap _ _ _

theorem spans_flipRecord (r : RuntimeRecord) : (spans (flipRecord r).buffers).Perm (spans r.buffers) :=
  (openGate_buffers _).symm ▸ spans_modBuffers spans_flipBuffers r

theorem span_clearIf (lab : Label) (k : Buffer) : Buffer.span (if k.label = lab then clearRows k else k) = k.span := by
  split <;> rfl

theorem spans_clearIfDue (b : Buffers) : (bufferList (clearIfDue b)).map Buffer.span = (bufferList b).map Buffer.span := by
  unfold clearIfDue
  split
  · rfl
  · next lab _ => cases hb : b.back <;> simp [bufferList, clearLabel, hb, span_clearIf]

theorem spans_frameRecord (r : RuntimeRecord) : (spans (frameRecord r).buffers).Perm (spans r.buffers) := by
  have hcleared := spans_modBuffers (fun b => .of_eq (spans_clearIfDue b)) r
  unfold frameRecord
  split
  · exact .refl _
  · dsimp only
    split
    · exact (spans_flipRecord _).trans hcleared
    · exact hcleared

theorem spans_clearRecord (w : Which) (r : RuntimeRecord) :
    (spans (clearRecord w r).buffers).Perm (spans r.buffers) := by
  refine spans_modBuffers (fun b => .of_eq ?_) r
  dsimp only
  split_ifs <;> simp [bufferList, spans_clearRows_back] <;> rfl

theorem spans_beginFrame (r : RuntimeRecord) :
    (spans (modBuffers (fun b => { b with back := b.back.map clearRows, backState := .writing }) r).buffers).Perm
      (spans r.buffers) :=
  spans_modBuffers (f := fun b => { b with back := b.back.map clearRows, backState := .writing })
    (fun b => .of_eq (congrArg (b.front.span :: ·) (spans_clearRows_back b))) r

theorem spans_markValid_back (row : Nat) (b : Buffers) :
    (bufferList { b with back := b.back.map (markValid row) }).map Buffer.span = (bufferList b).map Buffer.span := by
  unfold bufferList
  cases b.back <;> rfl

theorem spans_updated {f : RuntimeRecord → RuntimeRecord}
    (h : ∀ r, (spans (f r).buffers).Perm (spans r.buffers)) (key r : RuntimeRecord) :
    (spans (if sameRecord key r then f r else r).buffers).Perm (spans r.buffers) := by
  split
  · exact h r
  · exact .refl _

theorem closeStreamed_buffers (l : Link) (r : RuntimeRecord) : (closeStreamed l r).buffers = r.buffers := by
  unfold closeStreamed
  split <;> rfl

theorem markCarried_buffers (rs : List Region) (r : RuntimeRecord) : (markCarried rs r).buffers = r.buffers := by
  unfold markCarried
  split <;> rfl

theorem returnCarried_buffers (r : RuntimeRecord) : (returnCarried r).buffers = r.buffers := by
  unfold returnCarried
  split <;> rfl

theorem switchRecord_buffers (new : Region) (r : RuntimeRecord) : (switchRecord new r).buffers = r.buffers := by
  unfold switchRecord
  split <;> rfl

/-! ## The announcement, the withdrawal and the switch -/

theorem blocks_pos {g : Region} (h : RegionOk g) : 1 ≤ blocks g.width g.height := by
  obtain ⟨-, -, -, hwidth, -, -, hheight, -⟩ := h
  have harea : 1 * 1 ≤ g.width * g.height := Nat.mul_le_mul (by omega) hheight
  exact Nat.div_pos (by simp only [Config.blockPixels]; omega) (by decide)

theorem runsOk_announced {s : State} (hslots : SlotsOk s) (h : RunsOk s.engine) (n : SlotNo)
    {placed : List (Region × Option Buffers)} (hplaced : allocate (storeMap s.engine.records)
      (uncarried (activeRecords s.engine) (s.slots.slots.get n).regions) = some placed) (p : Pending) :
    RunsOk (announcedEngine p placed s.engine) := by
  obtain ⟨-, hok, -⟩ := (layoutOk_iff _).mp (hslots.1 n)
  have hapart := allocate_runsApart (storeMap_mapOk h)
    (fun r hr _ => blocks_pos (hok r (List.mem_of_mem_filter hr))) hplaced p.epoch
  have hruns := (runsApart_iff _).mp (hapart.perm ((storeMap_perm s.engine.records).append_left _))
  rw [List.map_append, newRuns, flatMap_recordRuns_spans, flatMap_recordRuns_spans] at hruns
  rw [runsOk_iff]
  refine hruns.perm (List.perm_append_comm.trans ?_)
  have hmarked := heldSpans_map (fun r => .of_eq (congrArg spans (markCarried_buffers p.regions r))) s.engine.records
  exact (hmarked.symm.append_right _).trans (.of_eq (heldSpans_append _ _).symm)

theorem runsOk_withdrawn {e : Engine} (h : RunsOk e) : RunsOk (withdrawnEngine e) := by
  rw [runsOk_iff] at h ⊢
  have hactive : (heldSpans (activeRecords e)).Sublist (heldSpans e.records) := List.Sublist.flatMap List.filter_sublist _
  exact (h.sublist hactive).perm
    (heldSpans_map (fun r => .of_eq (congrArg spans (returnCarried_buffers r))) _).symm

theorem recordWithTag_eq_some {t : Nat} {rs : List RuntimeRecord} {r : RuntimeRecord}
    (h : recordWithTag t rs = some r) : r ∈ rs ∧ r.region.tag = t :=
  ⟨List.mem_of_find?_eq_some h, by simpa using List.find?_some h⟩

/-- A record of the switch is an old one, with the blocks it held. -/
theorem mem_switchedRecords {rs : List Region} {records : List RuntimeRecord} {t : RuntimeRecord}
    (h : t ∈ switchedRecords rs records) : ∃ new ∈ rs, ∃ r ∈ records, r.membership ≠ .active
      ∧ r.region.tag = new.tag ∧ t = switchRecord new r := by
  obtain ⟨new, hnew, ht⟩ := List.mem_filterMap.mp h
  obtain ⟨r, hr, rfl⟩ := Option.map_eq_some_iff.mp ht
  obtain ⟨hmem, htag⟩ := recordWithTag_eq_some hr
  obtain ⟨hmem, hmember⟩ := List.mem_filter.mp hmem
  exact ⟨new, hnew, r, hmem, by simpa using hmember, htag, rfl⟩

theorem heldSpans_switched_pairwise {rs : List Region} {records : List RuntimeRecord}
    (htags : rs.Pairwise (fun x y => x.tag ≠ y.tag)) (h : SpansApart (heldSpans records)) :
    SpansApart (heldSpans (switchedRecords rs records)) := by
  obtain ⟨hpair, hstore⟩ := h
  obtain ⟨hwithin, hacross⟩ := List.pairwise_flatMap.mp hpair
  have : Std.Symm (fun x y : RuntimeRecord => ∀ a ∈ spans x.buffers, ∀ b ∈ spans y.buffers, SpanApart a b) :=
    ⟨fun x y hxy b hb a ha => (hxy a ha b hb).symm⟩
  have hother := hacross.forall
  refine ⟨List.pairwise_flatMap.mpr ⟨fun t ht => ?_, List.pairwise_filterMap.mpr (htags.imp ?_)⟩, fun x hx => ?_⟩
  · obtain ⟨new, -, r, hr, -, -, rfl⟩ := mem_switchedRecords ht
    exact switchRecord_buffers new r ▸ hwithin r hr
  · intro new old hne t ht u hu
    obtain ⟨r, hr, rfl⟩ := Option.map_eq_some_iff.mp ht
    obtain ⟨q, hq, rfl⟩ := Option.map_eq_some_iff.mp hu
    obtain ⟨hr, hrtag⟩ := recordWithTag_eq_some hr
    obtain ⟨hq, hqtag⟩ := recordWithTag_eq_some hq
    rw [switchRecord_buffers, switchRecord_buffers]
    exact hother (List.mem_of_mem_filter hr) (List.mem_of_mem_filter hq)
      fun heq => hne (hrtag.symm.trans (congrArg (·.region.tag) heq |>.trans hqtag))
  · obtain ⟨t, ht, hx⟩ := List.mem_flatMap.mp hx
    obtain ⟨new, -, r, hr, -, -, rfl⟩ := mem_switchedRecords ht
    rw [switchRecord_buffers] at hx
    exact hstore x (List.mem_flatMap.mpr ⟨r, hr, hx⟩)

theorem runsOk_switched {e : Engine} (h : RunsOk e) {p : Pending} (htags : p.regions.Pairwise (fun x y => x.tag ≠ y.tag)) :
    RunsOk (switchedEngine p e) := by
  rw [runsOk_iff] at h ⊢
  exact heldSpans_switched_pairwise htags h

/-- The pending layout passes the commit checks: it is the content of its slot. -/
theorem SlotEngineOk.pendingLayoutOk {s : State} (h : SlotEngineOk s) {p : Pending} (hp : s.engine.pending = some p) :
    layoutOk p.regions = true := by
  obtain ⟨⟨hs, -⟩, -, -, -, hpend, -⟩ := h
  obtain ⟨-, -, -, -, -, -, -, hlayout⟩ := hpend p hp
  have hok := hs p.slot
  rwa [hlayout] at hok

/-! ## The law of the store -/

theorem StoreOk.congr {s t : State} (h : StoreOk s) (hrecords : t.engine.records = s.engine.records)
    (hstore : t.store = s.store) : StoreOk t := ⟨h.1.of_records hrecords, hstore ▸ h.2⟩

theorem StoreOk.updateRecord {s : State} (h : StoreOk s) (key : RuntimeRecord) {f : RuntimeRecord → RuntimeRecord}
    (hf : ∀ r, (spans (f r).buffers).Perm (spans r.buffers)) : StoreOk (updateRecord key f s) :=
  ⟨h.1.map rfl (spans_updated hf key), h.2⟩

theorem StoreOk.withStore {s : State} (h : StoreOk s) {m : List PixelCell} (hm : Memory.wf m = true) :
    StoreOk { s with store := m } := ⟨h.1, hm⟩

theorem writeSingle_wf {m : List PixelCell} (h : Memory.wf m = true) (r : Region) (b : Buffer) (row offset : Nat)
    (px : List Colour) : Memory.wf (writeSingle m r b row offset px) = true := by
  unfold writeSingle
  dsimp only
  split
  · exact writePixels_wf h _ _
  · exact writePixels_wf (writePixels_wf h _ _) _ _

theorem StoreOk.storeLine {s : State} (h : StoreOk s) (l : Link) (r : RuntimeRecord) (p : Line) :
    StoreOk (storeLine l r p s) := by
  unfold Machine.storeLine
  dsimp only
  split
  · exact h
  · split
    · exact h
    · split
      · refine (h.withStore (writeSingle_wf h.2 _ _ _ _ _)).updateRecord r fun q => ?_
        exact (openGate_buffers _).symm ▸ spans_modBuffers
          (f := fun b => { b with front := markValid p.row.toNat b.front }) (fun _ => .refl _) q
      · split
        · exact h
        · split
          · exact h
          · exact (h.withStore (writePixels_wf h.2 _ _)).updateRecord r
              fun q => spans_modBuffers (fun b => .of_eq (spans_markValid_back _ b)) q

theorem StoreOk.withdraw {s : State} (h : StoreOk s) (reason : WithdrawReason) (quiet : Bool) :
    StoreOk (withdraw reason quiet s) := by
  refine ⟨?_, (withdraw_sameBut reason quiet s).store (by simp) ▸ h.2⟩
  rw [withdraw_engine]
  split
  · exact h.1
  · exact runsOk_withdrawn h.1

theorem StoreOk.steadyRequest {s : State} (h : StoreOk s) (hslots : SlotsOk s) (n : SlotNo) (cause : Cause)
    (who : Option Link) : StoreOk (steadyRequest n cause who s).1 := by
  obtain ⟨hsame, -⟩ | ⟨placed, -, hplaced, hrun⟩ := steadyRequest_cases n cause who s
  · exact hsame.symm ▸ h
  · rw [hrun]
    exact ⟨runsOk_announced hslots h.1 n hplaced _, h.2⟩

theorem StoreOk.makeSwitch {s : State} (h : StoreOk s) (hengine : SlotEngineOk s) (late : LinkSet) :
    StoreOk (makeSwitch late s) := by
  cases hp : s.engine.pending with
  | none =>
    have hsame : Machine.makeSwitch late s = s := by simp [Machine.makeSwitch, hp]
    exact hsame.symm ▸ h
  | some p =>
    obtain ⟨-, -, -, htags, -⟩ := (layoutOk_iff _).mp (hengine.pendingLayoutOk hp)
    refine ⟨?_, (makeSwitch_sameBut late s).store (by simp) ▸ h.2⟩
    rw [makeSwitch_engine hp]
    exact runsOk_switched h.1 htags

/-- The laws of the slots, the engine and the store. -/
abbrev SlotStoreOk (s : State) : Prop := SlotEngineOk s ∧ StoreOk s

theorem portOps_keep_slotStoreOk : PortOpsKeep SlotStoreOk :=
  portOps_of_holdsSwitch fun _ _ _ hf h => ⟨h.1.modPort hf, h.2⟩

theorem blockOps_keep_slotStoreOk : BlockOpsKeep SlotStoreOk where
  frames s t hst h := ⟨blockOps_keep_slotEngineOk.frames s t hst h.1,
    h.2.congr (congrArg (·.records) (hst.engine (by simp))) (hst.store (by simp))⟩
  touches x s hx h := h
  entries c k tx ty s h := ⟨blockOps_keep_slotEngineOk.entries c k tx ty s h.1, by
    obtain ⟨x, heq | ⟨l, n, heq⟩⟩ := applyEntry_eq c k tx ty s
    · exact heq ▸ h.2
    · exact heq ▸ h.2⟩
  cancels s h := ⟨blockOps_keep_slotEngineOk.cancels s h.1, by
    obtain ⟨hframe, -⟩ := cancelContacts_spec .cutoff [] s
    exact h.2.congr (congrArg (·.records) (hframe.engine (by simp))) (hframe.store (by simp))⟩
  withdraws reason quiet s h := ⟨h.1.withdraw reason quiet, h.2.withdraw reason quiet⟩
  requests n cause s hp hn h := ⟨h.1.steadyRequest hp hn cause, h.2.steadyRequest h.1.1 n cause none⟩
  holdsSwitch l tag n u s hfree hp hn hu h := ⟨h.1.holdSwitch hp hn hu tag, by
    have hrequest := h.2.steadyRequest h.1.1 n (.switchBy l) (some l)
    rw [hu] at hrequest
    exact hrequest⟩
  switches late s h := ⟨h.1.makeSwitch late, h.2.makeSwitch h.1 late⟩
  windows n p s hp hone hle h := ⟨blockOps_keep_slotEngineOk.windows n p s hp hone hle h.1, h.2⟩
  acks l p s hp h := ⟨blockOps_keep_slotEngineOk.acks l p s hp h.1, h.2⟩
  setsAckWindow n s hone htop h := ⟨blockOps_keep_slotEngineOk.setsAckWindow n s hone htop h.1, h.2⟩
  opensStaging l n backdrop s h := ⟨blockOps_keep_slotEngineOk.opensStaging l n backdrop s h.1, h.2⟩
  stages l st record r s hst hr hroom h := ⟨blockOps_keep_slotEngineOk.stages l st record r s hst hr hroom h.1, h.2⟩
  closesStaging l s h := ⟨blockOps_keep_slotEngineOk.closesStaging l s h.1, h.2⟩
  commits l st s hst hunused hapart hdistinct hneed h :=
    ⟨blockOps_keep_slotEngineOk.commits l st s hst hunused hapart hdistinct hneed h.1, h.2⟩
  setsRange low high outside s hle h := ⟨blockOps_keep_slotEngineOk.setsRange low high outside s hle h.1, h.2⟩
  setsFreeze f s h := h
  flips s h := ⟨h.1.of_records _, h.2.1.map rfl spans_frameRecord, h.2.2⟩
  clears l t w s h := ⟨h.1.of_records _, h.2.1.map rfl fun r => by
    split
    · exact spans_clearRecord w r
    · exact .refl _, h.2.2⟩
  stores l r p s hfound hcontent h :=
    ⟨blockOps_keep_slotEngineOk.stores l r p s hfound hcontent h.1, h.2.storeLine l r p⟩
  begins l r s _ _ h := ⟨h.1.of_records _, h.2.updateRecord r spans_beginFrame⟩
  ends l r s hfound hdouble hwriting h := ⟨blockOps_keep_slotEngineOk.ends l r s hfound hdouble hwriting h.1, by
    unfold endFrame
    split
    · exact h.2.updateRecord r spans_flipRecord
    · exact h.2.updateRecord r fun q => spans_modBuffers (f := fun b => { b with backState := .complete })
        (fun _ => .refl _) q⟩
  opensGate l r q s _ _ _ _ _ h := ⟨h.1.of_records _, h.2.updateRecord r fun q => .of_eq (congrArg spans (openGate_buffers q))⟩
  resetsPort l s hs h := ⟨h.1.portReset l,
    h.2.1.map rfl fun r => .of_eq (congrArg spans (closeStreamed_buffers l r)), h.2.2⟩
  powersOn s h := ⟨blockOps_keep_slotEngineOk.powersOn s h.1, by simp [RunsOk, powerOn, Engine.fresh], h.2.2⟩
  resets s h := ⟨blockOps_keep_slotEngineOk.resets s h.1, by simp [RunsOk, resetInput, Engine.fresh], h.2.2⟩

/-- Settles O58: every operation keeps the blocks that the records hold, gives some up, or takes blocks that none holds. -/
theorem stepKeepsStoreLaws : Obligations.StepKeepsStoreLaws :=
  fun _ _ hs he hstore ht => ((stepKeeps_of_ops portOps_keep_slotStoreOk blockOps_keep_slotStoreOk).step
    (P := SlotStoreOk) ⟨⟨hs, he⟩, hstore⟩ ht).2

end Sys2Proof.Machine
end

section
/-! PROOFS. The laws of the runtime records and of the contact table (sections 3.7, 3.8, 4.4 and 6.4): what each
operation on the records keeps, and that every step keeps them. -/

namespace Sys2Proof.Machine

/-! ## The buffers that a content calls for (R69, R80, R96, R100) -/

/-- What a SINGLE region holds. -/
abbrev SingleOk (g : Region) (b : Buffers) : Prop :=
  BufferOk g b.front ∧ b.front.label = .a ∧ b.back = none ∧ b.backState = .idle ∧ b.flipped = false ∧ b.clearDue = none

/-- What a DOUBLE region holds. -/
abbrev DoubleOk (g : Region) (m : Membership) (b : Buffers) : Prop :=
  BufferOk g b.front ∧ (∀ k ∈ b.back, BufferOk g k ∧ k.label ≠ b.front.label) ∧ b.back ≠ none
    ∧ (m = .pending → b.backState ≠ .complete ∧ b.clearDue = none) ∧ (∀ lab ∈ b.clearDue, lab = b.front.label)

theorem buffersOk_iff (g : Region) (m : Membership) (x : Option Buffers) : buffersOk g m x = true ↔
    (g.content = .streamed ∧ x = none) ∨ (g.content = .single ∧ ∃ b, x = some b ∧ SingleOk g b)
      ∨ (g.content = .double ∧ ∃ b, x = some b ∧ DoubleOk g m b) := by
  cases x with
  | none => cases hc : g.content <;> simp [buffersOk, hc]
  | some b =>
    cases hc : g.content with
    | streamed => simp [buffersOk, hc]
    | single => simp [buffersOk, hc]
    | double =>
      have hok : buffersOk g m (some b) = decide (DoubleOk g m b) := by simp only [buffersOk, hc]
      rw [hok, decide_eq_true_iff]
      simp

theorem buffersOk_map {g : Region} {m : Membership} {x : Option Buffers} (h : buffersOk g m x = true)
    {f : Buffers → Buffers} (hs : ∀ b, SingleOk g b → SingleOk g (f b))
    (hd : ∀ b, DoubleOk g m b → DoubleOk g m (f b)) : buffersOk g m (x.map f) = true := by
  rw [buffersOk_iff] at h ⊢
  obtain ⟨hc, rfl⟩ | ⟨hc, b, rfl, hb⟩ | ⟨hc, b, rfl, hb⟩ := h
  · exact .inl ⟨hc, rfl⟩
  · exact .inr (.inl ⟨hc, f b, rfl, hs b hb⟩)
  · exact .inr (.inr ⟨hc, f b, rfl, hd b hb⟩)

theorem buffersOk_map_double {g : Region} {m : Membership} {x : Option Buffers} (h : buffersOk g m x = true)
    (hc : g.content = .double) {f : Buffers → Buffers} (hd : ∀ b, DoubleOk g m b → DoubleOk g m (f b)) :
    buffersOk g m (x.map f) = true := by
  rw [buffersOk_iff] at h ⊢
  obtain ⟨hc', -⟩ | ⟨hc', -⟩ | ⟨-, b, rfl, hb⟩ := h
  · exact absurd (hc.symm.trans hc') nofun
  · exact absurd (hc.symm.trans hc') nofun
  · exact .inr (.inr ⟨hc, f b, rfl, hd b hb⟩)

/-- Only of a region of the pending layout alone do the laws ask more (R96, R100). -/
theorem buffersOk_of_active {g : Region} {m m' : Membership} {x : Option Buffers} (h : buffersOk g m x = true)
    (hm : m' ≠ .pending) : buffersOk g m' x = true := by
  rw [buffersOk_iff] at h ⊢
  obtain h | h | ⟨hc, b, hx, hfront, hback, hsome, -, hdue⟩ := h
  · exact .inl h
  · exact .inr (.inl h)
  refine .inr (.inr ?_)
  exact ⟨hc, b, hx, hfront, hback, hsome, fun hpending => absurd hpending hm, hdue⟩

theorem buffersOk_congr {g h : Region} {m : Membership} {x : Option Buffers} (hc : g.content = h.content)
    (hw : g.width = h.width) (hh : g.height = h.height) : buffersOk g m x = buffersOk h m x := by
  simp only [buffersOk, BufferOk, hc, hw, hh]

theorem bufferOk_clearRows {g : Region} {b : Buffer} (h : BufferOk g b) : BufferOk g (clearRows b) :=
  ⟨(List.length_map _).trans h.1, h.2⟩

theorem bufferOk_markValid {g : Region} {b : Buffer} (h : BufferOk g b) (row : Nat) : BufferOk g (markValid row b) :=
  ⟨(List.length_set).trans h.1, h.2⟩

theorem clearIfDue_clearDue (b : Buffers) : (clearIfDue b).clearDue = none := by
  unfold clearIfDue
  split
  · assumption
  · rfl

theorem singleOk_clearIfDue {g : Region} {b : Buffers} (h : SingleOk g b) : SingleOk g (clearIfDue b) := by
  obtain ⟨-, -, -, -, -, hdue⟩ := id h
  have hsame : clearIfDue b = b := by simp [clearIfDue, hdue]
  exact hsame.symm ▸ h

theorem bufferOk_clearIf {g : Region} {b : Buffer} (h : BufferOk g b) (lab : Label) :
    BufferOk g (if b.label = lab then clearRows b else b) := by
  split
  · exact bufferOk_clearRows h
  · exact h

theorem label_clearIf (b : Buffer) (lab : Label) : (if b.label = lab then clearRows b else b).label = b.label := by
  split <;> rfl

theorem doubleOk_clearIfDue {g : Region} {m : Membership} {b : Buffers} (h : DoubleOk g m b) :
    DoubleOk g m (clearIfDue b) := by
  obtain ⟨hfront, hback, hsome, hpending, -⟩ := id h
  unfold clearIfDue
  split
  · exact h
  · next lab _ =>
    refine ⟨bufferOk_clearIf hfront lab, ?_, by simpa [clearLabel] using hsome, fun hm => ⟨(hpending hm).1, rfl⟩, nofun⟩
    simp only [clearLabel, Option.mem_map, forall_exists_index, and_imp, forall_apply_eq_imp_iff₂, label_clearIf]
    exact fun k hk => ⟨bufferOk_clearIf (hback k hk).1 lab, (hback k hk).2⟩

theorem doubleOk_flipBuffers {g : Region} {m : Membership} {b : Buffers} (h : DoubleOk g m b) (hdue : b.clearDue = none) :
    DoubleOk g m (flipBuffers b) := by
  obtain ⟨hfront, hback, hsome, -, -⟩ := h
  obtain ⟨k, hk⟩ := Option.ne_none_iff_exists'.mp hsome
  obtain ⟨hkok, hlabel⟩ := hback k hk
  simp only [flipBuffers, hk]
  refine ⟨hkok, ?_, nofun, fun _ => ⟨nofun, hdue⟩, by simp [hdue]⟩
  rintro _ ⟨⟩
  exact ⟨hfront, hlabel.symm⟩

theorem doubleOk_withBack {g : Region} {m : Membership} {b : Buffers} (h : DoubleOk g m b) {f : Buffer → Buffer}
    (hf : ∀ k, BufferOk g k → BufferOk g (f k) ∧ (f k).label = k.label) {st : BackState}
    (hst : m = .pending → st ≠ .complete) : DoubleOk g m { b with back := b.back.map f, backState := st } := by
  obtain ⟨hfront, hback, hsome, hpending, hdue⟩ := h
  refine ⟨hfront, ?_, by simpa using hsome, fun hm => ⟨hst hm, (hpending hm).2⟩, hdue⟩
  simp only [Option.mem_map, forall_exists_index, and_imp, forall_apply_eq_imp_iff₂]
  intro k hk
  obtain ⟨hok, hlabel⟩ := hback k hk
  obtain ⟨hok', hlabel'⟩ := hf k hok
  exact ⟨hok', hlabel' ▸ hlabel⟩

/-! ## Changes of a record within its laws -/

/-- A record changed in its gate and its buffers, within the laws of a record. -/
abbrev KeepsRecord (r q : RuntimeRecord) : Prop :=
  q.region = r.region ∧ q.membership = r.membership ∧ q.entryEpoch = r.entryEpoch
    ∧ buffersOk r.region r.membership q.buffers = true
    ∧ (q.gate = r.gate ∨ q.gate = .closed ∨ (r.membership ≠ .pending ∧ r.region.owner ≠ none))

theorem KeepsRecord.refl {r : RuntimeRecord} (h : buffersOk r.region r.membership r.buffers = true) : KeepsRecord r r :=
  ⟨rfl, rfl, rfl, h, .inl rfl⟩

theorem keepsRecord_modBuffers {r : RuntimeRecord} {f : Buffers → Buffers}
    (h : buffersOk r.region r.membership (r.buffers.map f) = true) : KeepsRecord r (modBuffers f r) :=
  ⟨rfl, rfl, rfl, h, .inl rfl⟩

theorem KeepsRecord.openGate {r q : RuntimeRecord} (h : KeepsRecord r q) (howner : r.region.owner ≠ none) :
    KeepsRecord r (openGate q) := by
  unfold Machine.openGate
  split
  · exact h
  · next hm =>
    obtain ⟨hregion, hmember, hentry, hbuffers, -⟩ := h
    exact ⟨hregion, hmember, hentry, hbuffers, .inr (.inr ⟨hmember ▸ hm, howner⟩)⟩

/-- A STORED region has an owner (R3). -/
theorem owner_ne_none_of_double {g : Region} (h : RegionOk g) (hc : g.content = .double) : g.owner ≠ none := by
  obtain ⟨-, -, -, -, -, -, -, -, hnone, -⟩ := h
  exact fun ho => absurd (hc.symm.trans (hnone ho)) nofun

theorem keepsRecord_flipRecord {r : RuntimeRecord} (hregion : RegionOk r.region) (hc : r.region.content = .double)
    {x : RuntimeRecord} (hx : KeepsRecord r x) (hdue : ∀ b ∈ x.buffers, b.clearDue = none) :
    KeepsRecord r (flipRecord x) := by
  obtain ⟨hxregion, hmember, hentry, hbuffers, hgate⟩ := hx
  have hflipped : KeepsRecord r (modBuffers flipBuffers x) := by
    refine ⟨hxregion, hmember, hentry, ?_, hgate⟩
    rw [buffersOk_iff] at hbuffers ⊢
    obtain ⟨hc', -⟩ | ⟨hc', -⟩ | ⟨-, b, hb, hok⟩ := hbuffers
    · exact absurd (hc.symm.trans hc') nofun
    · exact absurd (hc.symm.trans hc') nofun
    · exact .inr (.inr ⟨hc, _, by simp [modBuffers, hb], doubleOk_flipBuffers hok (hdue b hb)⟩)
  exact hflipped.openGate (owner_ne_none_of_double hregion hc)

theorem keepsRecord_frameRecord {s : State} {r : RuntimeRecord} (h : RecordOk s r) : KeepsRecord r (frameRecord r) := by
  obtain ⟨hregion, hbuffers, -⟩ := h
  have hcleared : KeepsRecord r (modBuffers clearIfDue r) :=
    keepsRecord_modBuffers (buffersOk_map hbuffers (fun _ => singleOk_clearIfDue) (fun _ => doubleOk_clearIfDue))
  unfold frameRecord
  split
  · exact .refl hbuffers
  · dsimp only
    split
    · next hflip =>
      refine keepsRecord_flipRecord hregion (of_decide_eq_true hflip.1) hcleared fun b hb => ?_
      obtain ⟨b', -, rfl⟩ := Option.map_eq_some_iff.mp hb
      exact clearIfDue_clearDue b'
    · exact hcleared

/-- The effect of a REGION-CLEAR on a back buffer (R100). -/
def clearBack (b : Buffers) : Buffers :=
  { b with back := b.back.map clearRows, backState := if b.back.isSome then .idle else b.backState }

/-- The effect of a REGION-CLEAR on a front buffer: at once, or due (R100). -/
def clearFront (m : Membership) (b : Buffers) : Buffers :=
  if b.back.isNone ∨ m = .pending then { b with front := clearRows b.front }
  else { b with clearDue := some b.front.label }

theorem clearRecord_front (r : RuntimeRecord) : clearRecord .front r = modBuffers (clearFront r.membership) r := rfl

theorem clearRecord_back (r : RuntimeRecord) : clearRecord .back r = modBuffers clearBack r := rfl

theorem clearRecord_both (r : RuntimeRecord) :
    clearRecord .both r = modBuffers (fun b => clearFront r.membership (clearBack b)) r := by
  unfold clearRecord clearFront clearBack
  simp

theorem singleOk_clearBack {g : Region} {b : Buffers} (h : SingleOk g b) : SingleOk g (clearBack b) := by
  obtain ⟨hfront, hlabel, hback, hstate, hrest⟩ := h
  exact ⟨hfront, hlabel, by simp [clearBack, hback], by simp [clearBack, hback, hstate], hrest⟩

theorem singleOk_clearFront {g : Region} {b : Buffers} (h : SingleOk g b) (m : Membership) :
    SingleOk g (clearFront m b) := by
  obtain ⟨hfront, hlabel, hback, hrest⟩ := h
  rw [clearFront, if_pos (by simp [hback])]
  exact ⟨bufferOk_clearRows hfront, hlabel, hback, hrest⟩

theorem doubleOk_clearBack {g : Region} {m : Membership} {b : Buffers} (h : DoubleOk g m b) :
    DoubleOk g m (clearBack b) := by
  obtain ⟨-, -, hsome, -⟩ := id h
  exact doubleOk_withBack h (fun k hk => ⟨bufferOk_clearRows hk, rfl⟩) fun _ => by
    simp [Option.isSome_iff_ne_none.mpr hsome]

theorem doubleOk_clearFront {g : Region} {m : Membership} {b : Buffers} (h : DoubleOk g m b) :
    DoubleOk g m (clearFront m b) := by
  obtain ⟨hfront, hback, hsome, hpending, hdue⟩ := h
  unfold clearFront
  split
  · exact ⟨bufferOk_clearRows hfront, hback, hsome, hpending, hdue⟩
  · next hactive =>
    refine ⟨hfront, hback, hsome, fun hm => absurd (.inr hm) hactive, ?_⟩
    rintro lab ⟨⟩
    rfl

theorem keepsRecord_clearRecord {s : State} {r : RuntimeRecord} (h : RecordOk s r) (w : Which) :
    KeepsRecord r (clearRecord w r) := by
  obtain ⟨-, hbuffers, -⟩ := h
  cases w with
  | front =>
    exact keepsRecord_modBuffers (buffersOk_map hbuffers (fun _ hb => singleOk_clearFront hb _)
      (fun _ => doubleOk_clearFront))
  | back => exact keepsRecord_modBuffers (buffersOk_map hbuffers (fun _ => singleOk_clearBack) (fun _ => doubleOk_clearBack))
  | both =>
    rw [clearRecord_both]
    exact keepsRecord_modBuffers (buffersOk_map hbuffers (fun _ hb => singleOk_clearFront (singleOk_clearBack hb) _)
      (fun _ hb => doubleOk_clearFront (doubleOk_clearBack hb)))

theorem isDouble_iff {r : RuntimeRecord} : isDouble r = true ↔ r.region.content = .double := decide_eq_true_iff

theorem keepsRecord_beginFrame {s : State} {r : RuntimeRecord} (h : RecordOk s r) (hdouble : isDouble r = true) :
    KeepsRecord r (modBuffers (fun b => { b with back := b.back.map clearRows, backState := .writing }) r) := by
  obtain ⟨-, hbuffers, -⟩ := h
  exact keepsRecord_modBuffers (buffersOk_map_double hbuffers (isDouble_iff.mp hdouble) fun b hb =>
    doubleOk_withBack hb (fun k hk => ⟨bufferOk_clearRows hk, rfl⟩) fun _ => nofun)

theorem keepsRecord_complete {s : State} {r : RuntimeRecord} (h : RecordOk s r) (hdouble : isDouble r = true)
    (hm : r.membership ≠ .pending) : KeepsRecord r (modBuffers (fun b => { b with backState := .complete }) r) := by
  obtain ⟨-, hbuffers, -⟩ := h
  refine keepsRecord_modBuffers (buffersOk_map_double hbuffers (isDouble_iff.mp hdouble) fun b hb => ?_)
  obtain ⟨hfront, hback, hsome, -, hdue⟩ := hb
  exact ⟨hfront, hback, hsome, fun hpending => absurd hpending hm, hdue⟩

/-- An END for a region of the pending layout alone flips at once (R96). -/
theorem keepsRecord_flipPending {s : State} {r : RuntimeRecord} (h : RecordOk s r) (hdouble : isDouble r = true)
    (hm : r.membership = .pending) : KeepsRecord r (flipRecord r) := by
  obtain ⟨hregion, hbuffers, -⟩ := h
  have hc := isDouble_iff.mp hdouble
  refine keepsRecord_flipRecord hregion hc (.refl hbuffers) fun b hb => ?_
  obtain ⟨hc', -⟩ | ⟨hc', -⟩ | ⟨-, b', hb', -, -, -, hpending, -⟩ := (buffersOk_iff _ _ _).mp hbuffers
  · exact absurd (hc.symm.trans hc') nofun
  · exact absurd (hc.symm.trans hc') nofun
  · obtain rfl := Option.some.inj (hb'.symm.trans hb)
    exact (hpending hm).2

theorem keepsRecord_markFront {s : State} {r : RuntimeRecord} (h : RecordOk s r) (howner : r.region.owner ≠ none)
    (row : Nat) :
    KeepsRecord r (openGate (modBuffers (fun b => { b with front := markValid row b.front }) r)) := by
  obtain ⟨-, hbuffers, -⟩ := h
  refine KeepsRecord.openGate (keepsRecord_modBuffers (buffersOk_map hbuffers (fun b hb => ?_) (fun b hb => ?_))) howner
  · exact ⟨bufferOk_markValid hb.1 row, hb.2⟩
  · exact ⟨bufferOk_markValid hb.1 row, hb.2⟩

theorem keepsRecord_markBack {s : State} {r : RuntimeRecord} (h : RecordOk s r) (row : Nat) :
    KeepsRecord r (modBuffers (fun b => { b with back := b.back.map (markValid row) }) r) := by
  obtain ⟨-, hbuffers, -⟩ := h
  refine keepsRecord_modBuffers (buffersOk_map hbuffers (fun b hb => ?_) (fun b hb => ?_))
  · obtain ⟨hfront, hlabel, hback, hrest⟩ := hb
    exact ⟨hfront, hlabel, by simp [hback], hrest⟩
  · obtain ⟨-, -, -, hpending, -⟩ := id hb
    exact doubleOk_withBack hb (fun k hk => ⟨bufferOk_markValid hk row, rfl⟩) fun hm => (hpending hm).1

theorem keepsRecord_closeStreamed {s : State} {r : RuntimeRecord} (h : RecordOk s r) (l : Link) :
    KeepsRecord r (closeStreamed l r) := by
  obtain ⟨-, hbuffers, -⟩ := h
  unfold closeStreamed
  split
  · exact ⟨rfl, rfl, rfl, hbuffers, .inr (.inl rfl)⟩
  · exact .refl hbuffers

/-! ## The records as a whole -/

theorem activeRecords_map {rs : List RuntimeRecord} {change : RuntimeRecord → RuntimeRecord} {e : Engine}
    (hrecords : e.records = rs.map change) (hmember : ∀ r ∈ rs, (change r).membership = r.membership) :
    activeRecords e = (rs.filter (fun r => r.membership ≠ .pending)).map change := by
  unfold activeRecords
  rw [hrecords, List.filter_map]
  exact congrArg _ (List.filter_congr fun r hr => by simp [hmember r hr])

theorem pendingRecords_map {rs : List RuntimeRecord} {change : RuntimeRecord → RuntimeRecord} {e : Engine}
    (hrecords : e.records = rs.map change) (hmember : ∀ r ∈ rs, (change r).membership = r.membership) :
    pendingRecords e = (rs.filter (fun r => r.membership ≠ .active)).map change := by
  unfold pendingRecords
  rw [hrecords, List.filter_map]
  exact congrArg _ (List.filter_congr fun r hr => by simp [hmember r hr])

/-- The engines agree in what the records' laws read, but for the records. -/
abbrev SameLayouts (e f : Engine) : Prop :=
  f.active = e.active ∧ f.activeEpoch = e.activeEpoch
    ∧ f.pending.map (fun p => (p.epoch, p.regions)) = e.pending.map (fun p => (p.epoch, p.regions))

theorem SameLayouts.pending_none {e f : Engine} (h : SameLayouts e f) : f.pending = none ↔ e.pending = none := by
  rw [← Option.map_eq_none_iff, h.2.2, Option.map_eq_none_iff]

theorem SameLayouts.pendingEpoch_eq {e f : Engine} (h : SameLayouts e f) : pendingEpoch f = pendingEpoch e := by
  have := congrArg (Option.map Prod.fst) h.2.2
  simpa [pendingEpoch, Function.comp_def] using this

theorem SameLayouts.pending_regions {e f : Engine} (h : SameLayouts e f) {p : Pending} (hp : f.pending = some p) :
    ∃ q, e.pending = some q ∧ q.regions = p.regions := by
  have := h.2.2
  rw [hp] at this
  obtain ⟨q, hq, heq⟩ := Option.map_eq_some_iff.mp this.symm
  exact ⟨q, hq, (Prod.mk.inj heq).2⟩

theorem KeepsRecord.recordOk {s t : State} {r q : RuntimeRecord} (hkeep : KeepsRecord r q) (h : RecordOk s r)
    (hlayouts : SameLayouts s.engine t.engine) : RecordOk t q := by
  obtain ⟨hregion, hmember, hentry, hbuffers, hgate⟩ := hkeep
  obtain ⟨hok, -, hone, hactive, hpending, howner, hsteady⟩ := h
  unfold RecordOk
  rw [hregion, hmember, hentry, hlayouts.2.1, hlayouts.pendingEpoch_eq, hlayouts.pending_none]
  refine ⟨hok, hbuffers, hone, hactive, fun hm => ⟨(hpending hm).1, ?_⟩, fun ho => ?_, hsteady⟩
  · obtain hsame | hclosed | ⟨hne, -⟩ := hgate
    · exact hsame.trans (hpending hm).2
    · exact hclosed
    · exact absurd hm hne
  · obtain hsame | hclosed | ⟨-, hne⟩ := hgate
    · exact hsame.trans (howner ho)
    · exact hclosed
    · exact absurd ho hne

/-- A change of each record within its laws keeps the laws of them all. -/
theorem RecordsOk.map {s t : State} (h : RecordsOk s) (hslots : t.slots.slots = s.slots.slots)
    (hlayouts : SameLayouts s.engine t.engine) {change : RuntimeRecord → RuntimeRecord}
    (hrecords : t.engine.records = s.engine.records.map change)
    (hkeep : ∀ r ∈ s.engine.records, KeepsRecord r (change r)) : RecordsOk t := by
  obtain ⟨hrec, hactive, hpending, hempty, hslot, hkept⟩ := h
  have hmember (r) (hr : r ∈ s.engine.records) : (change r).membership = r.membership := (hkeep r hr).2.1
  have hregion (r) (hr : r ∈ s.engine.records) : (change r).region = r.region := (hkeep r hr).1
  have hactives : activeRecords t.engine = (activeRecords s.engine).map change := activeRecords_map hrecords hmember
  have hpendings : pendingRecords t.engine = (pendingRecords s.engine).map change := pendingRecords_map hrecords hmember
  have hfromActive {r} (hr : r ∈ activeRecords s.engine) : r ∈ s.engine.records := (mem_activeRecords.mp hr).1
  have hfromPending {r} (hr : r ∈ pendingRecords s.engine) : r ∈ s.engine.records := (mem_pendingRecords.mp hr).1
  refine ⟨?_, ?_, ?_, ?_, ?_, ?_⟩
  · rw [hrecords, List.forall_mem_map]
    exact fun r hr => (hkeep r hr).recordOk (hrec r hr) hlayouts
  · rw [hactives, List.pairwise_map]
    exact hactive.imp_of_mem fun hx hy hne => by rwa [hregion _ (hfromActive hx), hregion _ (hfromActive hy)]
  · rw [hpendings, List.pairwise_map]
    exact hpending.imp_of_mem fun hx hy hne => by rwa [hregion _ (hfromPending hx), hregion _ (hfromPending hy)]
  · rw [hlayouts.1, hactives]
    exact fun hnone => by rw [hempty hnone, List.map_nil]
  · rw [hlayouts.1, hslots, hactives, List.map_map]
    intro n hn
    rw [← hslot n hn]
    exact List.map_congr_left fun r hr => hregion r (hfromActive hr)
  · intro p hp
    obtain ⟨q, hq, hregions⟩ := hlayouts.pending_regions hp
    obtain ⟨hkept, htags⟩ := hkept q hq
    rw [← hregions, hpendings, hrecords]
    refine ⟨fun new hnew => ?_, List.forall_mem_map.mpr fun r hr => ?_⟩
    · obtain ⟨r, hr, hcase⟩ := hkept new hnew
      refine ⟨change r, List.mem_map_of_mem hr, ?_⟩
      rwa [hmember r hr, hregion r hr]
    · rw [hregion r (hfromPending hr)]
      exact htags r hr

theorem RecordsOk.of_engine {s t : State} (h : RecordsOk s) (hslots : t.slots = s.slots) (hengine : t.engine = s.engine) :
    RecordsOk t := by
  unfold RecordsOk RecordOk
  rw [hengine, hslots]
  exact h

/-- A tag names one of some records. -/
theorem eq_of_recordTag {rs : List RuntimeRecord} (h : rs.Pairwise (fun x y => x.region.tag ≠ y.region.tag))
    {x y : RuntimeRecord} (hx : x ∈ rs) (hy : y ∈ rs) (htag : x.region.tag = y.region.tag) : x = y := by
  have : Std.Symm (fun x y : RuntimeRecord => x.region.tag ≠ y.region.tag) := ⟨fun _ _ hxy => hxy.symm⟩
  by_contra hne
  exact h.forall hx hy hne htag

/-- A tag and membership name one record (R69). -/
theorem RecordsOk.sameRecord_eq {s : State} (h : RecordsOk s) {r q : RuntimeRecord} (hr : r ∈ s.engine.records)
    (hq : q ∈ s.engine.records) (hsame : sameRecord r q = true) : q = r := by
  obtain ⟨-, hactive, hpending, -⟩ := h
  obtain ⟨htag, hmember⟩ : r.region.tag = q.region.tag ∧ r.membership = q.membership := by
    simpa [sameRecord] using hsame
  by_cases hm : r.membership = .pending
  · exact eq_of_recordTag hpending (mem_pendingRecords.mpr ⟨hq, by simp [← hmember, hm]⟩)
      (mem_pendingRecords.mpr ⟨hr, by simp [hm]⟩) htag.symm
  · exact eq_of_recordTag hactive (mem_activeRecords.mpr ⟨hq, hmember ▸ hm⟩) (mem_activeRecords.mpr ⟨hr, hm⟩) htag.symm

/-! ## The contact table -/

theorem contactOk_bound {e : Engine} {tag : Nat} {owner : Link} {u v : Nat} :
    contactOk e (.bound tag owner u v) = true ↔
      ∃ r ∈ activeRecords e, r.region.tag = tag ∧ r.region.owner = some owner ∧ r.gate = .opened := by
  simp [contactOk]

/-- What a contact is bound to stays as it was. -/
theorem ContactsOk.of_bound {s t : State} (h : ContactsOk s)
    (hcontacts : ∀ c : TouchId, t.touch.contacts.get c = s.touch.contacts.get c)
    (hkeep : ∀ r ∈ activeRecords s.engine, r.region.owner ≠ none → r.gate = .opened →
      ∃ q ∈ activeRecords t.engine, q.region = r.region ∧ q.gate = .opened) : ContactsOk t := by
  intro c
  have hc := h c
  rw [hcontacts]
  cases hx : s.touch.contacts.get c with
  | free => rfl
  | discard => rfl
  | bound tag owner u v =>
    rw [hx, contactOk_bound] at hc
    obtain ⟨r, hr, htag, howner, hgate⟩ := hc
    obtain ⟨q, hq, hregion, hgate'⟩ := hkeep r hr (by simp [howner]) hgate
    exact contactOk_bound.mpr ⟨q, hq, hregion ▸ htag, hregion ▸ howner, hgate'⟩

theorem ContactsOk.map {s t : State} (h : ContactsOk s) (htouch : t.touch.contacts = s.touch.contacts)
    {change : RuntimeRecord → RuntimeRecord} (hrecords : t.engine.records = s.engine.records.map change)
    (hkeep : ∀ r ∈ s.engine.records, KeepsRecord r (change r))
    (hgate : ∀ r ∈ s.engine.records, r.gate = .opened → (change r).gate = .opened) : ContactsOk t := by
  refine h.of_bound (fun c => by rw [htouch]) fun r hr _ hopen => ?_
  have hmem := (mem_activeRecords.mp hr).1
  refine ⟨change r, ?_, (hkeep r hmem).1, hgate r hmem hopen⟩
  rw [activeRecords_map hrecords fun r hr => (hkeep r hr).2.1]
  exact List.mem_map_of_mem hr

theorem ContactsOk.setContact {s : State} (h : ContactsOk s) (c : TouchId) {x : Contact}
    (hx : contactOk s.engine x = true) : ContactsOk (setContact c x s) := by
  intro d
  rw [setContact_get]
  split
  · exact hx
  · exact h d

/-- The laws of the records and of the contact table. -/
abbrev RecordContactOk (s : State) : Prop := RecordsOk s ∧ ContactsOk s

theorem RecordContactOk.map {s t : State} (h : RecordContactOk s) (hslots : t.slots.slots = s.slots.slots)
    (hlayouts : SameLayouts s.engine t.engine) (htouch : t.touch.contacts = s.touch.contacts)
    {change : RuntimeRecord → RuntimeRecord} (hrecords : t.engine.records = s.engine.records.map change)
    (hkeep : ∀ r ∈ s.engine.records, KeepsRecord r (change r))
    (hgate : ∀ r ∈ s.engine.records, r.gate = .opened → (change r).gate = .opened) : RecordContactOk t :=
  ⟨h.1.map hslots hlayouts hrecords hkeep, h.2.map htouch hrecords hkeep hgate⟩

theorem SameLayouts.refl (e : Engine) : SameLayouts e e := ⟨rfl, rfl, rfl⟩

theorem RecordContactOk.congr {s t : State} (h : RecordContactOk s) (hslots : t.slots.slots = s.slots.slots)
    (hlayouts : SameLayouts s.engine t.engine) (hrecords : t.engine.records = s.engine.records)
    (htouch : t.touch.contacts = s.touch.contacts) : RecordContactOk t :=
  h.map hslots hlayouts htouch (change := id) (by simp [hrecords])
    (fun r hr => .refl (h.1.1 r hr).2.1) fun _ _ => id

/-- A change of one record within its laws. -/
theorem RecordContactOk.updateRecord {s : State} (h : RecordContactOk s) {r : RuntimeRecord}
    (hr : r ∈ s.engine.records) {f : RuntimeRecord → RuntimeRecord} (hf : KeepsRecord r (f r))
    (hgate : r.gate = .opened → (f r).gate = .opened) : RecordContactOk (updateRecord r f s) := by
  refine h.map (change := fun q => if sameRecord r q then f q else q) rfl (.refl _) rfl rfl (fun q hq => ?_) (fun q hq => ?_)
  · split
    · next hsame => exact h.1.sameRecord_eq hr hq hsame ▸ hf
    · exact .refl (h.1.1 q hq).2.1
  · split
    · next hsame => exact h.1.sameRecord_eq hr hq hsame ▸ hgate
    · exact id

theorem openGate_opened (r : RuntimeRecord) (h : r.gate = .opened) : (openGate r).gate = .opened := by
  unfold openGate
  split
  · exact h
  · rfl

theorem recordWithTag_mem {t : Nat} {rs : List RuntimeRecord} {r : RuntimeRecord}
    (h : recordWithTag t rs = some r) : r ∈ rs := (recordWithTag_eq_some h).1

/-- A line or mark finds one of the records. -/
theorem FindsRecord.mem {l : Link} {r : RuntimeRecord} {s : State} (h : FindsRecord l r s) : r ∈ s.engine.records := by
  obtain ⟨⟨epoch, tag, hfound⟩, -⟩ := h
  unfold resolve at hfound
  split at hfound
  · cases hfound
  · split at hfound
    · exact (mem_pendingRecords.mp (recordWithTag_mem hfound)).1
    · split at hfound
      · cases hfound
      · next q hq =>
        split at hfound
        · exact Option.some.inj hfound ▸ (mem_activeRecords.mp (recordWithTag_mem hq)).1
        · cases hfound

theorem frameRecord_gate (r : RuntimeRecord) (h : r.gate = .opened) : (frameRecord r).gate = .opened := by
  unfold frameRecord
  split
  · exact h
  · dsimp only
    split
    · exact openGate_opened _ h
    · exact h

theorem RecordContactOk.storeLine {s : State} (h : RecordContactOk s) {l : Link} {r : RuntimeRecord}
    (hfound : FindsRecord l r s) (p : Line) : RecordContactOk (storeLine l r p s) := by
  have hr := hfound.mem
  have hok := h.1.1 r hr
  have hstore (m : List PixelCell) : RecordContactOk { s with store := m } := h
  unfold Machine.storeLine
  dsimp only
  split
  · exact h
  · split
    · exact h
    · split
      · exact (hstore _).updateRecord hr (keepsRecord_markFront hok (by simp [hfound.2]) _) fun hopen =>
          openGate_opened _ hopen
      · split
        · exact h
        · split
          · exact h
          · exact (hstore _).updateRecord hr (keepsRecord_markBack hok _) id

/-! ## The withdrawal (R62) -/

theorem returnCarried_region (r : RuntimeRecord) : (returnCarried r).region = r.region := by
  unfold returnCarried
  split <;> rfl

theorem returnCarried_gate (r : RuntimeRecord) : (returnCarried r).gate = r.gate := by
  unfold returnCarried
  split <;> rfl

theorem returnCarried_entryEpoch (r : RuntimeRecord) : (returnCarried r).entryEpoch = r.entryEpoch := by
  unfold returnCarried
  split <;> rfl

theorem returnCarried_membership {r : RuntimeRecord} (h : r.membership ≠ .pending) :
    (returnCarried r).membership = .active := by
  unfold returnCarried
  split
  · rfl
  · cases hm : r.membership <;> simp_all

theorem activeRecords_of_active {e : Engine} (h : ∀ r ∈ e.records, r.membership = .active) :
    activeRecords e = e.records := List.filter_eq_self.mpr fun r hr => by simp [h r hr]

theorem pendingRecords_of_active {e : Engine} (h : ∀ r ∈ e.records, r.membership = .active) :
    pendingRecords e = [] := List.filter_eq_nil_iff.mpr fun r hr => by simp [h r hr]

theorem withdrawn_membership (e : Engine) : ∀ r ∈ (withdrawnEngine e).records, r.membership = .active :=
  List.forall_mem_map.mpr fun _ hr => returnCarried_membership (mem_activeRecords.mp hr).2

theorem activeRecords_withdrawn (e : Engine) :
    activeRecords (withdrawnEngine e) = (activeRecords e).map returnCarried :=
  activeRecords_of_active (withdrawn_membership e)

theorem recordsOk_withdrawn {s t : State} (h : RecordsOk s) (hslots : t.slots = s.slots)
    (hengine : t.engine = withdrawnEngine s.engine) : RecordsOk t := by
  obtain ⟨hrec, hactive, -, hempty, hslot, -⟩ := h
  unfold RecordsOk
  rw [hengine, hslots, activeRecords_withdrawn, pendingRecords_of_active (withdrawn_membership _)]
  refine ⟨List.forall_mem_map.mpr fun r hr => ?_, ?_, .nil, fun hnone => ?_, fun n hn => ?_, nofun⟩
  · obtain ⟨hmem, hm⟩ := mem_activeRecords.mp hr
    obtain ⟨hok, hbuffers, hone, hentry, -, howner, -⟩ := hrec r hmem
    unfold RecordOk
    rw [hengine, returnCarried_region, returnCarried_membership hm, returnCarried_buffers, returnCarried_entryEpoch,
      returnCarried_gate]
    exact ⟨hok, buffersOk_of_active hbuffers nofun, hone, fun _ => hentry hm, nofun, howner, fun _ => rfl⟩
  · rw [List.pairwise_map]
    simpa only [returnCarried_region] using hactive
  · rw [hempty hnone, List.map_nil]
  · rw [← hslot n hn, List.map_map]
    exact List.map_congr_left fun r _ => returnCarried_region r

theorem RecordContactOk.withdraw {s : State} (h : RecordContactOk s) (reason : WithdrawReason) (quiet : Bool) :
    RecordContactOk (withdraw reason quiet s) := by
  have hframe := withdraw_sameBut reason quiet s
  have hengine := withdraw_engine reason quiet s
  have htouch := hframe.touch (by simp)
  split at hengine
  · exact h.congr (congrArg (·.slots) (hframe.slots (by simp))) (hengine ▸ .refl _) (congrArg (·.records) hengine)
      (congrArg (·.contacts) htouch)
  · refine ⟨recordsOk_withdrawn h.1 (hframe.slots (by simp)) hengine,
      h.2.of_bound (fun c => by rw [htouch]) fun r hr _ hopen => ?_⟩
    rw [hengine, activeRecords_withdrawn]
    exact ⟨_, List.mem_map_of_mem hr, returnCarried_region r, (returnCarried_gate r).trans hopen⟩

/-! ## The announcement (R52, R54) -/

theorem markCarried_cases (rs : List Region) (r : RuntimeRecord) :
    (rs.any (carries r.region) = true ∧ markCarried rs r = { r with membership := .both })
      ∨ (rs.any (carries r.region) = false ∧ markCarried rs r = r) := by
  unfold markCarried
  split
  · next hc => exact .inl ⟨hc, rfl⟩
  · next hc => exact .inr ⟨by simpa using hc, rfl⟩

theorem markCarried_region (rs : List Region) (r : RuntimeRecord) : (markCarried rs r).region = r.region := by
  obtain ⟨-, h⟩ | ⟨-, h⟩ := markCarried_cases rs r <;> rw [h]

theorem markCarried_gate (rs : List Region) (r : RuntimeRecord) : (markCarried rs r).gate = r.gate := by
  obtain ⟨-, h⟩ | ⟨-, h⟩ := markCarried_cases rs r <;> rw [h]

theorem markCarried_not_pending {rs : List Region} {r : RuntimeRecord} (h : r.membership = .active) :
    (markCarried rs r).membership ≠ .pending := by
  obtain ⟨-, hr⟩ | ⟨-, hr⟩ := markCarried_cases rs r <;> simp [hr, h]

theorem carries_iff (old new : Region) : carries old new = true ↔ old.tag = new.tag ∧ old.owner = new.owner
    ∧ old.content = new.content ∧ old.width = new.width ∧ old.height = new.height := decide_eq_true_iff

theorem activeRecords_announced {e : Engine} (hsteady : ∀ r ∈ e.records, r.membership = .active) (p : Pending)
    (placed : List (Region × Option Buffers)) :
    activeRecords (announcedEngine p placed e) = e.records.map (markCarried p.regions) := by
  have hold : (e.records.map (markCarried p.regions)).filter (fun r => decide (r.membership ≠ .pending))
      = e.records.map (markCarried p.regions) :=
    List.filter_eq_self.mpr (List.forall_mem_map.mpr fun r hr => by simp [markCarried_not_pending (hsteady r hr)])
  have hnew : (placed.map (newRecord p.epoch)).filter (fun r => decide (r.membership ≠ .pending)) = [] :=
    List.filter_eq_nil_iff.mpr (List.forall_mem_map.mpr fun x _ => by simp [newRecord])
  exact (List.filter_append _ _).trans ((congrArg₂ _ hold hnew).trans (List.append_nil _))

/-- A record of the pending layout after an announcement: a carried one, or one for a region that is not carried. -/
theorem mem_announced {e : Engine} {p : Pending} {placed : List (Region × Option Buffers)} {r : RuntimeRecord}
    (h : r ∈ (announcedEngine p placed e).records) :
    (∃ q ∈ e.records, r = markCarried p.regions q) ∨ ∃ x ∈ placed, r = newRecord p.epoch x := by
  obtain hr | hr := List.mem_append.mp h
  · obtain ⟨q, hq, rfl⟩ := List.mem_map.mp hr
    exact .inl ⟨q, hq, rfl⟩
  · obtain ⟨x, hx, rfl⟩ := List.mem_map.mp hr
    exact .inr ⟨x, hx, rfl⟩

section
variable {s t : State} (h : RecordsOk s) (hp : s.engine.pending = none) {p : Pending}
  (hlayout : layoutOk p.regions = true) (hone : 1 ≤ p.epoch) {placed : List (Region × Option Buffers)}
  (hregions : placed.map Prod.fst = uncarried (activeRecords s.engine) p.regions)
  (hbuffers : ∀ x ∈ placed, buffersOk x.1 .pending x.2 = true)

include h hp in
theorem RecordsOk.steady_membership : ∀ r ∈ s.engine.records, r.membership = .active := fun r hr => by
  obtain ⟨-, -, -, -, -, -, hsteady⟩ := h.1 r hr
  exact hsteady hp

include h hp in
theorem activeRecords_steady : activeRecords s.engine = s.engine.records :=
  activeRecords_of_active (h.steady_membership hp)

include hregions in
theorem placed_uncarried {x : Region × Option Buffers} (hx : x ∈ placed) :
    x.1 ∈ p.regions ∧ ∀ r ∈ activeRecords s.engine, carries r.region x.1 = false := by
  have hmem : x.1 ∈ uncarried (activeRecords s.engine) p.regions := hregions ▸ List.mem_map_of_mem hx
  obtain ⟨hmem, hnot⟩ := List.mem_filter.mp hmem
  exact ⟨hmem, by simpa [isCarried] using hnot⟩

include h hp hlayout hone hregions hbuffers in
theorem recordOk_announced (ht : t.engine = announcedEngine p placed s.engine) :
    ∀ r ∈ t.engine.records, RecordOk t r := by
  rw [ht]
  intro r hr
  have hpending : pendingEpoch t.engine = some p.epoch := by rw [ht]; rfl
  have hnotnone : t.engine.pending ≠ none := by rw [ht]; exact nofun
  obtain ⟨q, hq, rfl⟩ | ⟨x, hx, rfl⟩ := mem_announced hr
  · obtain ⟨hok, hbuf, hq1, hentry, -, howner, -⟩ := h.1 q hq
    have hqm := h.steady_membership hp q hq
    have hentry' : q.entryEpoch ≤ t.engine.activeEpoch := by
      rw [ht]
      exact hentry (by simp [hqm])
    obtain ⟨-, heq⟩ | ⟨-, heq⟩ := markCarried_cases p.regions q
    · rw [heq]
      exact ⟨hok, buffersOk_of_active hbuf nofun, hq1, fun _ => hentry', nofun, howner, fun hnone => absurd hnone hnotnone⟩
    · rw [heq]
      exact ⟨hok, hbuf, hq1, fun _ => hentry', fun hm => absurd (hqm.symm.trans hm) nofun, howner,
        fun hnone => absurd hnone hnotnone⟩
  · obtain ⟨-, hregionsOk, -⟩ := (layoutOk_iff _).mp hlayout
    exact ⟨hregionsOk _ (placed_uncarried hregions hx).1, hbuffers x hx, hone, fun hm => absurd rfl hm,
      fun _ => ⟨hpending, rfl⟩, fun _ => rfl, fun hnone => absurd hnone hnotnone⟩

/-- A carried record is one of the pending layout, and carries into a region of it. -/
theorem markCarried_both {rs : List Region} {r : RuntimeRecord} (hr : r.membership = .active)
    (hm : (markCarried rs r).membership ≠ .active) : rs.any (carries r.region) = true := by
  obtain ⟨hany, -⟩ | ⟨-, heq⟩ := markCarried_cases rs r
  · exact hany
  · exact absurd ((congrArg (·.membership) heq).trans hr) hm

include h hp in
theorem mem_pendingRecords_announced {r : RuntimeRecord} (hr : r ∈ pendingRecords (announcedEngine p placed s.engine)) :
    (∃ q ∈ s.engine.records, (∃ new ∈ p.regions, carries q.region new = true) ∧ r = markCarried p.regions q)
      ∨ ∃ x ∈ placed, r = newRecord p.epoch x := by
  obtain ⟨hmem, hm⟩ := mem_pendingRecords.mp hr
  obtain ⟨q, hq, rfl⟩ | hnew := mem_announced hmem
  · exact .inl ⟨q, hq, List.any_eq_true.mp (markCarried_both (h.steady_membership hp q hq) hm), rfl⟩
  · exact .inr hnew

/-- A tag names one region of a layout. -/
theorem eq_of_tag {rs : List Region} (htags : rs.Pairwise (fun x y => x.tag ≠ y.tag)) {x y : Region} (hx : x ∈ rs)
    (hy : y ∈ rs) (h : x.tag = y.tag) : x = y := by
  have : Std.Symm (fun x y : Region => x.tag ≠ y.tag) := ⟨fun _ _ hxy => hxy.symm⟩
  by_contra hne
  exact htags.forall hx hy hne h

include h hp hlayout hregions in
/-- Tags name one record of the pending layout: a region whose tag a carried record has is the one it carries into. -/
theorem pendingTags_announced : (pendingRecords (announcedEngine p placed s.engine)).Pairwise
    (fun x y => x.region.tag ≠ y.region.tag) := by
  obtain ⟨-, hactive, -⟩ := id h
  obtain ⟨-, -, -, htags, -⟩ := (layoutOk_iff _).mp hlayout
  have hsteady := activeRecords_steady h hp
  have hold : (s.engine.records.map (markCarried p.regions)).Pairwise (fun x y => x.region.tag ≠ y.region.tag) := by
    rw [List.pairwise_map]
    simpa only [markCarried_region, ← hsteady] using hactive
  have hnew : (placed.map (newRecord p.epoch)).Pairwise (fun x y => x.region.tag ≠ y.region.tag) := by
    have huncarried : (placed.map Prod.fst).Pairwise (fun x y => x.tag ≠ y.tag) := hregions ▸ htags.filter _
    rw [List.pairwise_map] at huncarried ⊢
    exact huncarried
  unfold pendingRecords announcedEngine
  rw [List.filter_append]
  refine List.pairwise_append.mpr ⟨hold.filter _, hnew.filter _, fun x hx y hy htag => ?_⟩
  obtain ⟨hx, hm⟩ := List.mem_filter.mp hx
  obtain ⟨q, hq, rfl⟩ := List.mem_map.mp hx
  obtain ⟨z, hz, rfl⟩ := List.mem_map.mp (List.mem_of_mem_filter hy)
  obtain ⟨new, hnew, hcarries⟩ := List.any_eq_true.mp
    (markCarried_both (h.steady_membership hp q hq) (by simpa using hm))
  obtain ⟨hmem, hnot⟩ := placed_uncarried hregions hz
  have hsame : new = z.1 := eq_of_tag htags hnew hmem
    (((carries_iff _ _).mp hcarries).1.symm.trans ((congrArg Region.tag (markCarried_region _ q)).symm.trans htag))
  have := hnot q (hsteady.symm ▸ hq)
  rw [← hsame, hcarries] at this
  exact absurd this (by decide)

include h hp hregions in
theorem regionKept_announced {new : Region} (hnew : new ∈ p.regions) :
    RegionKept (announcedEngine p placed s.engine).records new := by
  have hsteady := activeRecords_steady h hp
  by_cases hc : isCarried (activeRecords s.engine) new = true
  · obtain ⟨r, hr, hcarries⟩ := List.any_eq_true.mp hc
    rw [hsteady] at hr
    refine ⟨markCarried p.regions r, List.mem_append_left _ (List.mem_map_of_mem hr), .inl ?_⟩
    have hany : p.regions.any (carries r.region) = true := List.any_eq_true.mpr ⟨new, hnew, hcarries⟩
    rw [markCarried, if_pos hany]
    exact ⟨rfl, hcarries⟩
  · have hmem : new ∈ placed.map Prod.fst := hregions ▸ List.mem_filter.mpr ⟨hnew, by simpa using hc⟩
    obtain ⟨x, hx, rfl⟩ := List.mem_map.mp hmem
    exact ⟨newRecord p.epoch x, List.mem_append_right _ (List.mem_map_of_mem hx), .inr ⟨rfl, rfl⟩⟩

include h hp hlayout hone hregions hbuffers in
theorem recordsOk_announced (hslots : t.slots = s.slots) (ht : t.engine = announcedEngine p placed s.engine) :
    RecordsOk t := by
  have hrec := recordOk_announced h hp hlayout hone hregions hbuffers ht
  have hsteady := h.steady_membership hp
  have hactives := activeRecords_announced hsteady p placed
  have hpendings := pendingTags_announced h hp hlayout hregions
  obtain ⟨-, hactive, -, hempty, hslot, -⟩ := id h
  rw [activeRecords_steady h hp] at hactive hempty hslot
  refine ⟨hrec, ?_, ht ▸ hpendings, ?_, ?_, ?_⟩
  · rw [ht, hactives, List.pairwise_map]
    simpa only [markCarried_region] using hactive
  · rw [ht, hactives]
    exact fun hnone => by rw [hempty hnone, List.map_nil]
  · rw [ht, hactives, hslots, List.map_map]
    intro n hn
    rw [← hslot n hn]
    exact List.map_congr_left fun r _ => markCarried_region _ r
  · rw [ht]
    rintro q ⟨⟩
    refine ⟨fun new hnew => regionKept_announced h hp hregions hnew, fun r hr => ?_⟩
    obtain ⟨q, -, ⟨new, hnew, hcarries⟩, rfl⟩ | ⟨x, hx, rfl⟩ := mem_pendingRecords_announced h hp hr
    · exact ⟨new, hnew, (markCarried_region p.regions q).symm ▸ ((carries_iff _ _).mp hcarries).1.symm⟩
    · exact ⟨x.1, (placed_uncarried hregions hx).1, rfl⟩

include h hp in
theorem contactsOk_announced (hcontacts : ContactsOk s) (htouch : t.touch = s.touch)
    (ht : t.engine = announcedEngine p placed s.engine) : ContactsOk t := by
  refine hcontacts.of_bound (fun c => by rw [htouch]) fun r hr _ hopen => ?_
  rw [ht, activeRecords_announced (h.steady_membership hp)]
  rw [activeRecords_steady h hp] at hr
  exact ⟨_, List.mem_map_of_mem hr, markCarried_region _ r, (markCarried_gate _ r).trans hopen⟩

end

theorem one_le_succ_of_ne_lastEpoch {e : Word} (h : e ≠ lastEpoch) : 1 ≤ e + 1 := by
  have hlt := lt_succ_of_ne_lastEpoch h
  rw [BitVec.lt_def] at hlt
  rw [BitVec.le_def]
  exact Nat.lt_of_le_of_lt (Nat.zero_le _) hlt

theorem RecordContactOk.steadyRequest {s : State} (h : RecordContactOk s) (hslots : SlotsOk s)
    (hp : s.engine.pending = none) (n : SlotNo) (cause : Cause) (who : Option Link) :
    RecordContactOk (steadyRequest n cause who s).1 := by
  obtain ⟨hsame, -⟩ | ⟨placed, hcounter, hplaced, hrun⟩ := steadyRequest_cases n cause who s
  · exact hsame.symm ▸ h
  · obtain ⟨hregions, hbuffers⟩ := allocate_buffers hplaced
    have hlayout := hslots.1 n
    rw [hrun]
    exact ⟨recordsOk_announced h.1 hp (p := pendingFor n cause who (s.slots.slots.get n) s) hlayout
      (one_le_succ_of_ne_lastEpoch hcounter) hregions hbuffers rfl rfl, contactsOk_announced h.1 hp h.2 rfl rfl⟩

/-! ## The switch (R59, R60, R73) -/

section
variable {s t : State} (h : RecordsOk s) (he : SlotEngineOk s) {p : Pending} (hp : s.engine.pending = some p)

/-- The record of the pending layout's region. -/
def recordFor (e : Engine) (new : Region) : Option RuntimeRecord := recordWithTag new.tag (pendingRecords e)

include h hp in
/-- Every region of the pending layout has its record: a carried one, or its own. -/
theorem exists_recordFor {new : Region} (hnew : new ∈ p.regions) : ∃ r ∈ s.engine.records,
    recordFor s.engine new = some r
      ∧ ((r.membership = .both ∧ carries r.region new = true) ∨ (r.membership = .pending ∧ r.region = new)) := by
  obtain ⟨-, -, hpending, -, -, hkept⟩ := h
  obtain ⟨r, hr, hcase⟩ := (hkept p hp).1 new hnew
  have hm : r.membership ≠ .active := by obtain ⟨hm, -⟩ | ⟨hm, -⟩ := hcase <;> simp [hm]
  have htag : r.region.tag = new.tag := by
    obtain ⟨-, hcarries⟩ | ⟨-, rfl⟩ := hcase
    · exact ((carries_iff _ _).mp hcarries).1
    · rfl
  have hmem := mem_pendingRecords.mpr ⟨hr, hm⟩
  refine ⟨r, hr, ?_, hcase⟩
  cases hfound : recordFor s.engine new with
  | none => exact absurd (List.find?_eq_none.mp hfound r hmem) (by simpa using htag)
  | some q =>
    obtain ⟨hq, hqtag⟩ := recordWithTag_eq_some hfound
    exact congrArg some (eq_of_recordTag hpending hq hmem (hqtag.trans htag.symm))

theorem switchedRecords_eq (e : Engine) (rs : List Region) :
    switchedRecords rs e.records = rs.filterMap (fun new => (recordFor e new).map (switchRecord new)) := rfl

include h hp in
theorem mem_switched {r' : RuntimeRecord} (hr' : r' ∈ switchedRecords p.regions s.engine.records) :
    ∃ new ∈ p.regions, ∃ r ∈ s.engine.records, r' = switchRecord new r
      ∧ ((r.membership = .both ∧ carries r.region new = true) ∨ (r.membership = .pending ∧ r.region = new)) := by
  obtain ⟨new, hnew, hmap⟩ := List.mem_filterMap.mp hr'
  obtain ⟨r, hr, hfound, hcase⟩ := exists_recordFor h hp hnew
  rw [show recordWithTag new.tag (s.engine.records.filter (fun r => decide (r.membership ≠ .active))) = some r from hfound]
    at hmap
  exact ⟨new, hnew, r, hr, (Option.some.inj hmap).symm, hcase⟩

theorem switchRecord_both {new : Region} {r : RuntimeRecord} (hm : r.membership = .both) :
    switchRecord new r = { r with region := new, membership := .active } := if_pos hm

theorem switchRecord_pending {new : Region} {r : RuntimeRecord} (hm : r.membership = .pending) :
    switchRecord new r = { r with membership := .active, gate := gateAtSwitch r } := if_neg (by simp [hm])

theorem switchRecord_membership (new : Region) (r : RuntimeRecord) : (switchRecord new r).membership = .active := by
  unfold switchRecord
  split <;> rfl

theorem gateAtSwitch_streamed {r : RuntimeRecord} (h : r.region.content = .streamed) : gateAtSwitch r = .closed := by
  simp [gateAtSwitch, h]

include h hp in
theorem switched_regions : (switchedRecords p.regions s.engine.records).map (·.region) = p.regions := by
  rw [switchedRecords_eq, List.map_filterMap]
  have hall : ∀ new ∈ p.regions, ((recordFor s.engine new).map (switchRecord new)).map (·.region) = some new := by
    intro new hnew
    obtain ⟨r, -, hfound, ⟨hm, -⟩ | ⟨hm, rfl⟩⟩ := exists_recordFor h hp hnew
    · simp [hfound, switchRecord_both hm]
    · simp [hfound, switchRecord_pending hm]
  calc p.regions.filterMap (fun new => ((recordFor s.engine new).map (switchRecord new)).map (·.region))
      = p.regions.filterMap some := List.filterMap_congr hall
    _ = p.regions := List.filterMap_some

include h he hp in
theorem recordOk_switched (ht : t.engine = switchedEngine p s.engine) {new : Region} (hnew : new ∈ p.regions)
    {r : RuntimeRecord} (hr : r ∈ s.engine.records)
    (hcase : (r.membership = .both ∧ carries r.region new = true) ∨ (r.membership = .pending ∧ r.region = new)) :
    RecordOk t (switchRecord new r) := by
  obtain ⟨-, hregionsOk, -⟩ := (layoutOk_iff _).mp (he.pendingLayoutOk hp)
  obtain ⟨-, -, -, -, hpend, -⟩ := he
  obtain ⟨-, hlt, -⟩ := hpend p hp
  obtain ⟨hok, hbuffers, hone, hactive, hpending, howner, -⟩ := h.1 r hr
  have hepoch : t.engine.activeEpoch = p.epoch := by rw [ht]; rfl
  unfold RecordOk
  rw [switchRecord_membership, hepoch]
  obtain ⟨hm, hcarries⟩ | ⟨hm, rfl⟩ := hcase
  · obtain ⟨-, hsameOwner, hcontent, hwidth, hheight⟩ := (carries_iff _ _).mp hcarries
    rw [switchRecord_both hm]
    refine ⟨hregionsOk new hnew, ?_, hone, fun _ => ?_, nofun, fun ho => howner (hsameOwner.trans ho), fun _ => rfl⟩
    · rw [← buffersOk_congr hcontent hwidth hheight]
      exact buffersOk_of_active hbuffers nofun
    · have := hactive (by simp [hm])
      rw [BitVec.le_def] at this ⊢
      rw [BitVec.lt_def] at hlt
      exact this.trans hlt.le
  · rw [switchRecord_pending hm]
    have hentry : p.epoch = r.entryEpoch := by
      have := (hpending hm).1
      simpa [pendingEpoch, hp] using this
    refine ⟨hok, buffersOk_of_active hbuffers nofun, hone, fun _ => hentry ▸ BitVec.le_refl _, nofun, fun ho => ?_,
      fun _ => rfl⟩
    obtain ⟨-, -, -, -, -, -, -, -, hnone, -⟩ := hok
    exact gateAtSwitch_streamed (hnone ho)

include h hp in
theorem activeRecords_switched : activeRecords (switchedEngine p s.engine) = switchedRecords p.regions s.engine.records :=
  activeRecords_of_active fun r' hr' => by
    obtain ⟨new, -, r, -, rfl, -⟩ := mem_switched h hp hr'
    exact switchRecord_membership new r

include h hp in
theorem pendingRecords_switched : pendingRecords (switchedEngine p s.engine) = [] :=
  pendingRecords_of_active fun r' hr' => by
    obtain ⟨new, -, r, -, rfl, -⟩ := mem_switched h hp hr'
    exact switchRecord_membership new r

include h he hp in
theorem recordsOk_switched (hslots : t.slots = s.slots) (ht : t.engine = switchedEngine p s.engine) : RecordsOk t := by
  have hregions := switched_regions h hp
  obtain ⟨-, -, -, htags, -⟩ := (layoutOk_iff _).mp (he.pendingLayoutOk hp)
  obtain ⟨-, -, -, -, hpend, -⟩ := id he
  obtain ⟨-, -, -, -, -, -, -, hlayout⟩ := hpend p hp
  unfold RecordsOk
  rw [ht, activeRecords_switched h hp, pendingRecords_switched h hp, hslots]
  refine ⟨fun r' hr' => ?_, ?_, .nil, nofun, ?_, nofun⟩
  · obtain ⟨new, hnew, r, hr, rfl, hcase⟩ := mem_switched h hp hr'
    exact recordOk_switched h he hp ht hnew hr hcase
  · rw [← hregions] at htags
    rwa [List.pairwise_map] at htags
  · rintro n ⟨⟩
    rw [hregions, hlayout]

include h hp in
/-- A contact that the switch keeps is bound to a carried region, whose record keeps its gate. -/
theorem contactsOk_switched (hcontacts : ContactsOk s) (ht : t.engine = switchedEngine p s.engine)
    (htouch : ∀ c : TouchId, t.touch.contacts.get c =
      contactAfterCancel (carriedTags s.engine) (s.touch.contacts.get c)) : ContactsOk t := by
  intro c
  have hc := hcontacts c
  rw [htouch]
  unfold contactAfterCancel
  split
  · next tag owner u v hbound =>
    split
    · next hkeep =>
      rw [hbound, contactOk_bound] at hc
      obtain ⟨r, hr, htag, howner, hgate⟩ := hc
      obtain ⟨q, hq, hqtag⟩ := List.mem_map.mp hkeep
      obtain ⟨hq, hqm⟩ := List.mem_filter.mp hq
      have hqm : q.membership = .both := of_decide_eq_true hqm
      obtain ⟨-, hactive, hpending, -, -, hkept⟩ := id h
      obtain rfl := eq_of_recordTag hactive (mem_activeRecords.mpr ⟨hq, by simp [hqm]⟩) hr (hqtag.trans htag.symm)
      have hmem := mem_pendingRecords.mpr ⟨hq, by simp [hqm]⟩
      obtain ⟨new, hnew, hnewtag⟩ := (hkept p hp).2 q hmem
      obtain ⟨x, -, hfound, hcase⟩ := exists_recordFor h hp hnew
      obtain ⟨hx, hxtag⟩ := recordWithTag_eq_some hfound
      obtain rfl := eq_of_recordTag hpending hx hmem (hxtag.trans hnewtag)
      obtain ⟨-, hcarries⟩ | ⟨hm, -⟩ := hcase
      · obtain ⟨-, hsameOwner, -⟩ := (carries_iff _ _).mp hcarries
        rw [hbound, contactOk_bound, ht, activeRecords_switched h hp]
        refine ⟨switchRecord new x, List.mem_filterMap.mpr ⟨new, hnew, congrArg (Option.map _) hfound⟩, ?_⟩
        rw [switchRecord_both hqm]
        exact ⟨hnewtag.trans htag, hsameOwner ▸ howner, hgate⟩
      · exact absurd (hqm.symm.trans hm) nofun
    · rfl
  · next hnot =>
    cases hx : s.touch.contacts.get c with
    | free => rfl
    | discard => rfl
    | bound tag owner u v => exact absurd hx (hnot tag owner u v)

end

theorem RecordContactOk.makeSwitch {s : State} (h : RecordContactOk s) (he : SlotEngineOk s) (late : LinkSet) :
    RecordContactOk (makeSwitch late s) := by
  cases hp : s.engine.pending with
  | none =>
    have hsame : Machine.makeSwitch late s = s := by simp [Machine.makeSwitch, hp]
    exact hsame.symm ▸ h
  | some p =>
    have hengine := makeSwitch_engine hp late
    exact ⟨recordsOk_switched h.1 he hp ((makeSwitch_sameBut late s).slots (by simp)) hengine,
      contactsOk_switched h.1 hp h.2 hengine (makeSwitch_touch hp late).2⟩

/-! ## Touch reports, cancellations and PORT-RESET (R134 to R141) -/

theorem recordUnder_mem {e : Engine} {c r : Nat} {q : RuntimeRecord} (h : recordUnder e c r = some q) :
    q ∈ activeRecords e := List.mem_of_find?_eq_some h

theorem bindOwner_eq_some {latch : Latch} {r : RuntimeRecord} {l : Link} (h : bindOwner latch r = some l) :
    r.region.touch = .route ∧ r.gate = .opened ∧ latch = .clear ∧ r.region.owner = some l := by
  unfold bindOwner at h
  split at h
  · next hall => exact ⟨hall.1, hall.2.1, hall.2.2, h⟩
  · cases h

theorem ContactsOk.applyEntry {s : State} (h : ContactsOk s) (c : TouchId) (k : TouchKind) (tx ty : Nat) :
    ContactsOk (applyEntry c k tx ty s) := by
  have hbound {tag : Nat} {owner : Link} {u v : Nat} (hx : s.touch.contacts.get c = .bound tag owner u v) (u' v' : Nat) :
      contactOk s.engine (.bound tag owner u' v') = true := by
    have hc := h c
    rw [hx] at hc
    exact hc
  unfold Machine.applyEntry
  dsimp only
  split
  · exact h
  · unfold startContact
    split
    · exact h.setContact c rfl
    · next r hr =>
      split
      · exact h.setContact c rfl
      · next l hl =>
        obtain ⟨-, hgate, -, howner⟩ := bindOwner_eq_some hl
        exact h.setContact c (contactOk_bound.mpr ⟨r, recordUnder_mem hr, rfl, howner, hgate⟩)
  · exact h.setContact c rfl
  · next hx _ => exact h.setContact c (hbound hx _ _)
  · exact h.setContact c rfl
  · exact h

theorem contactAfterCancel_all_ok (e : Engine) (x : Contact) : contactOk e (contactAfterCancel [] x) = true := by
  cases x <;> rfl

/-- A PORT-RESET discards the contacts bound to its link and leaves the others. -/
theorem discardContacts_get (l : Link) (v : Vector Contact 10) (d : TouchId) :
    (discardContacts l v).get d = discardOf l (v.get d) := by
  have hfold (cs : List TouchId) (hnodup : cs.Nodup) (v : Vector Contact 10) :
      (cs.foldl (fun v c => v.set c.val (discardOf l (v.get c)) c.isLt) v).get d =
        if d ∈ cs then discardOf l (v.get d) else v.get d := by
    induction cs generalizing v with
    | nil => rfl
    | cons c cs ih =>
      obtain ⟨hc, hcs⟩ := List.nodup_cons.mp hnodup
      rw [List.foldl_cons, ih hcs]
      by_cases hd : d = c
      · subst hd
        simp [hc, Vector.get_eq_getElem]
      · have hne : ¬ (c : Nat) = d := fun heq => hd (Fin.ext heq.symm)
        simp [hd, Vector.get_eq_getElem, hne]
  exact (hfold touchIds touchIds_nodup v).trans (if_pos (mem_touchIds d))

theorem closeStreamed_gate {l : Link} {r : RuntimeRecord} (h : r.region.owner ≠ some l) :
    (closeStreamed l r) = r := if_neg fun hclosed => h hclosed.2.1

theorem withdrawAck_layout (l : Link) (p : Pending) :
    ((withdrawAck l p).epoch, (withdrawAck l p).regions) = (p.epoch, p.regions) := by
  unfold withdrawAck
  dsimp only
  split <;> rfl

theorem RecordContactOk.portReset {s : State} (h : RecordContactOk s) (l : Link) :
    RecordContactOk (portResetEffects l s) := by
  have hkeep (r) (hr : r ∈ s.engine.records) : KeepsRecord r (closeStreamed l r) :=
    keepsRecord_closeStreamed (h.1.1 r hr) l
  have hpending : (s.engine.pending.map (withdrawAck l)).map (fun p => (p.epoch, p.regions))
      = s.engine.pending.map (fun p => (p.epoch, p.regions)) := by
    rw [Option.map_map]
    exact Option.map_congr fun p _ => withdrawAck_layout l p
  refine ⟨h.1.map rfl ⟨rfl, rfl, hpending⟩ rfl hkeep, fun c => ?_⟩
  have hcontact : (portResetEffects l s).touch.contacts.get c = discardOf l (s.touch.contacts.get c) :=
    discardContacts_get l _ c
  have hc := h.2 c
  rw [hcontact]
  cases hx : s.touch.contacts.get c with
  | free => rfl
  | discard => rfl
  | bound tag owner u v =>
    unfold discardOf
    dsimp only
    split
    · rfl
    · next hother =>
      rw [hx, contactOk_bound] at hc
      obtain ⟨r, hr, htag, howner, hgate⟩ := hc
      refine contactOk_bound.mpr ⟨r, ?_, htag, howner, hgate⟩
      have hsame : closeStreamed l r = r := closeStreamed_gate (by simpa [howner] using hother)
      rw [activeRecords_map (e := (portResetEffects l s).engine) rfl fun r hr => (hkeep r hr).2.1]
      exact List.mem_map.mpr ⟨r, hr, hsame⟩

/-! ## The laws of the slots, the engine, the records and the contacts -/

/-- The laws of the slots, the engine, the records and the contacts. -/
abbrev LayoutsOk (s : State) : Prop := SlotEngineOk s ∧ RecordContactOk s

theorem portOps_keep_layoutsOk : PortOpsKeep LayoutsOk :=
  portOps_of_holdsSwitch fun _ _ _ hf h => ⟨h.1.modPort hf, h.2⟩

theorem RecordContactOk.empty {s : State} {n : Nat} (hengine : s.engine = Engine.fresh n)
    (hcontacts : ∀ c : TouchId, s.touch.contacts.get c = .free) : RecordContactOk s := by
  refine ⟨?_, fun c => by rw [hcontacts]; rfl⟩
  unfold RecordsOk
  rw [hengine]
  simp [Engine.fresh, activeRecords, pendingRecords, ActiveLayout.empty]

theorem RecordContactOk.setLayout {s : State} (h : RecordContactOk s) {n : SlotNo}
    (hunused : slotUse s.engine n = .none) (x : Layout) : RecordContactOk (setLayout n x s) := by
  obtain ⟨⟨hrec, hactive, hpending, hempty, hslot, hkept⟩, hcontacts⟩ := h
  refine ⟨⟨hrec, hactive, hpending, hempty, fun m hm => ?_, hkept⟩, hcontacts⟩
  have hne : m ≠ n := fun heq => (slotUse_eq_none hunused).1 (heq ▸ hm)
  rw [setLayout_get, if_neg hne]
  exact hslot m hm

theorem blockOps_keep_layoutsOk : BlockOpsKeep LayoutsOk where
  frames s t hst h := ⟨blockOps_keep_slotEngineOk.frames s t hst h.1, by
    have hengine : t.engine = s.engine := hst.engine (by simp)
    exact h.2.congr (congrArg (·.slots) (hst.slots (by simp))) (hengine ▸ .refl _) (congrArg (·.records) hengine)
      (congrArg (·.contacts) (hst.touch (by simp)))⟩
  touches x s hx h := ⟨h.1, h.2.congr rfl (.refl _) rfl hx⟩
  entries c k tx ty s h := ⟨blockOps_keep_slotEngineOk.entries c k tx ty s h.1, by
    have hframe := applyEntry_sameBut c k tx ty s
    exact ⟨h.2.1.of_engine (hframe.slots (by simp)) (hframe.engine (by simp)), h.2.2.applyEntry c k tx ty⟩⟩
  cancels s h := ⟨blockOps_keep_slotEngineOk.cancels s h.1, by
    obtain ⟨hframe, -, hcontacts, -⟩ := cancelContacts_spec .cutoff [] s
    exact ⟨h.2.1.of_engine (hframe.slots (by simp)) (hframe.engine (by simp)),
      fun c => hcontacts c ▸ contactAfterCancel_all_ok _ _⟩⟩
  withdraws reason quiet s h := ⟨h.1.withdraw reason quiet, h.2.withdraw reason quiet⟩
  requests n cause s hp hn h := ⟨h.1.steadyRequest hp hn cause, h.2.steadyRequest h.1.1 hp n cause none⟩
  holdsSwitch l tag n u s hfree hp hn hu h := ⟨h.1.holdSwitch hp hn hu tag, by
    have hrequest := h.2.steadyRequest h.1.1 hp n (.switchBy l) (some l)
    rw [hu] at hrequest
    exact hrequest⟩
  switches late s h := ⟨h.1.makeSwitch late, h.2.makeSwitch h.1 late⟩
  windows n p s hp hone hle h := ⟨blockOps_keep_slotEngineOk.windows n p s hp hone hle h.1,
    h.2.congr rfl ⟨rfl, rfl, by simp [setWindow, Function.comp_def]⟩ rfl rfl⟩
  acks l p s hp h := ⟨blockOps_keep_slotEngineOk.acks l p s hp h.1,
    h.2.congr rfl ⟨rfl, rfl, by unfold acknowledge; split <;> simp [hp]⟩ rfl rfl⟩
  setsAckWindow n s hone htop h := ⟨blockOps_keep_slotEngineOk.setsAckWindow n s hone htop h.1, h.2⟩
  opensStaging l n backdrop s h := ⟨blockOps_keep_slotEngineOk.opensStaging l n backdrop s h.1, h.2⟩
  stages l st record r s hst hr hroom h := ⟨blockOps_keep_slotEngineOk.stages l st record r s hst hr hroom h.1, h.2⟩
  closesStaging l s h := ⟨blockOps_keep_slotEngineOk.closesStaging l s h.1, h.2⟩
  commits l st s hst hunused hapart hdistinct hneed h :=
    ⟨blockOps_keep_slotEngineOk.commits l st s hst hunused hapart hdistinct hneed h.1, h.2.setLayout hunused _⟩
  setsRange low high outside s hle h := ⟨blockOps_keep_slotEngineOk.setsRange low high outside s hle h.1, h.2⟩
  setsFreeze f s h := h
  flips s h := ⟨h.1.of_records _, h.2.map rfl (.refl _) rfl rfl
    (fun r hr => keepsRecord_frameRecord (h.2.1.1 r hr)) fun r _ => frameRecord_gate r⟩
  clears l t w s h := ⟨h.1.of_records _, h.2.map rfl (.refl _) rfl rfl
    (fun r hr => by
      split
      · exact keepsRecord_clearRecord (h.2.1.1 r hr) w
      · exact .refl (h.2.1.1 r hr).2.1)
    fun r _ hopen => by split <;> exact hopen⟩
  stores l r p s hfound hcontent h :=
    ⟨blockOps_keep_slotEngineOk.stores l r p s hfound hcontent h.1, h.2.storeLine hfound p⟩
  begins l r s hfound hdouble h :=
    ⟨h.1.of_records _, h.2.updateRecord hfound.mem (keepsRecord_beginFrame (h.2.1.1 r hfound.mem) hdouble) id⟩
  ends l r s hfound hdouble hwriting h := ⟨blockOps_keep_slotEngineOk.ends l r s hfound hdouble hwriting h.1, by
    have hok := h.2.1.1 r hfound.mem
    unfold endFrame
    split
    · next hm =>
      exact h.2.updateRecord hfound.mem (keepsRecord_flipPending hok hdouble hm)
        (openGate_opened (modBuffers flipBuffers r))
    · next hm => exact h.2.updateRecord hfound.mem (keepsRecord_complete hok hdouble hm) id⟩
  opensGate l r q s hq hregion hmember hm howner h := ⟨h.1.of_records _, by
    have hsame : updateRecord r openGate s = updateRecord q openGate s := by
      unfold updateRecord sameRecord
      rw [hregion, hmember]
    rw [hsame]
    exact h.2.updateRecord hq ((KeepsRecord.refl (h.2.1.1 q hq).2.1).openGate (by simp [hregion, howner]))
      (openGate_opened q)⟩
  resetsPort l s hs h := ⟨h.1.portReset l, h.2.portReset l⟩
  powersOn s h := ⟨blockOps_keep_slotEngineOk.powersOn s h.1, .empty rfl fun c => get_replicate _ c⟩
  resets s h := ⟨blockOps_keep_slotEngineOk.resets s h.1, .empty rfl fun c => get_replicate _ c⟩

/-- Settles O59: every operation changes the records and the contacts within their laws. -/
theorem stepKeepsRecordAndContactLaws : Obligations.StepKeepsRecordAndContactLaws :=
  fun _ _ hs he hr hc ht => ((stepKeeps_of_ops portOps_keep_layoutsOk blockOps_keep_layoutsOk).step
    (P := LayoutsOk) ⟨⟨hs, he⟩, hr, hc⟩ ht).2

end Sys2Proof.Machine
end

section
/-! PROOFS. The transition engine and its commands (chapter 3, section 7.6): follow evaluation, a request, SWITCH,
SET-FACE, BIND, ABORT, the records at the switch, and that a slot in use is not rewritten. -/

namespace Sys2Proof.Machine

/-! ## Follow evaluation (R41 to R43, R63) -/

section
variable {cause : Cause} {s : State} {n : SlotNo}

theorem desiredSlot_of_binding {m : PostureMonitor} (h : bindingFor m.bindings m.posture m.face = some (.slot n)) :
    desiredSlot m = .slot n := by
  simp [desiredSlot, h]

theorem followEvaluation_unknown (h : s.posture.posture = .unknown) : followEvaluation cause s = (s, .none) := by
  have hdesired : desiredSlot s.posture = .none := by simp [desiredSlot, h, bindingFor]
  simp [followEvaluation, hdesired]

theorem followEvaluation_hold (h : bindingFor s.posture.bindings s.posture.posture s.posture.face = some .hold) :
    followEvaluation cause s = (s, .hold) := by
  have hdesired : desiredSlot s.posture = .hold := by simp [desiredSlot, h]
  simp [followEvaluation, hdesired]

section
variable (h : bindingFor s.posture.bindings s.posture.posture s.posture.face = some (.slot n))
include h

theorem followEvaluation_target (ht : currentTarget s.engine = some n) : followEvaluation cause s = (s, .none) := by
  simp [followEvaluation, desiredSlot_of_binding h, ht]

theorem followEvaluation_request (ht : currentTarget s.engine ≠ some n) :
    followEvaluation cause s =
      if (followRequest n cause s).2 = .storeFull then
        (modPosture (fun m => { m with stalled := true }) (followRequest n cause s).1, (followRequest n cause s).2)
      else followRequest n cause s := by
  simp only [followEvaluation, desiredSlot_of_binding h, if_neg ht]

/-- What the engine answers a follow request that it takes in STEADY, and the stalled flag. -/
theorem followEvaluation_of_request (ht : currentTarget s.engine ≠ some n) {v : State}
    (hv : followRequest n cause s = ((steadyRequest n cause none v).1, outcomeOf (steadyRequest n cause none v).2)) :
    (∀ u, steadyRequest n cause none v = (u, .announced) → followEvaluation cause s = (u, .announced))
      ∧ (∀ u, steadyRequest n cause none v = (u, .exhausted) → followEvaluation cause s = (u, .exhausted))
      ∧ ∀ u need, steadyRequest n cause none v = (u, .storeFull need) →
        followEvaluation cause s = ({ u with posture := { u.posture with stalled := true } }, .storeFull) := by
  rw [followEvaluation_request h ht, hv]
  refine ⟨fun u hu => ?_, fun u hu => ?_, fun u need hu => ?_⟩
  · simp only [hu, outcomeOf, reduceCtorEq, if_false]
  · simp only [hu, outcomeOf, reduceCtorEq, if_false]
  · simp only [hu, outcomeOf, if_true]
    rfl

end

theorem currentTarget_steady (h : s.engine.pending = none) : currentTarget s.engine = s.engine.active.slot := by
  simp [currentTarget, h]

theorem currentTarget_pending {p : Pending} (h : s.engine.pending = some p) : currentTarget s.engine = some p.slot := by
  simp [currentTarget, h]

theorem followRequest_steady (h : s.engine.pending = none) : followRequest n cause s =
    ((steadyRequest n cause none s).1, outcomeOf (steadyRequest n cause none s).2) := by
  simp only [followRequest, h]

theorem withdraw_active (reason : WithdrawReason) (quiet : Bool) (s : State) :
    (withdraw reason quiet s).engine.active = s.engine.active := by
  rw [withdraw_engine]
  split <;> rfl

/-- A follow request while a transition is pending withdraws it, and is then taken in STEADY (R63). -/
theorem followRequest_pending {p : Pending} (h : s.engine.pending = some p) : followRequest n cause s =
    if s.engine.active.slot = some n then (withdraw .superseded false s, .none)
    else ((steadyRequest n cause none (withdraw .superseded false s)).1,
      outcomeOf (steadyRequest n cause none (withdraw .superseded false s)).2) := by
  simp only [followRequest, h, withdraw_active]

end

/-- Settles O19: the cases of the desired slot against the current target, and of the engine's answer. -/
theorem followEvaluationMakesRequest : Obligations.FollowEvaluationMakesRequest := by
  refine fun cause s => ⟨followEvaluation_unknown, followEvaluation_hold, fun n hn => ⟨fun hp hactive => ?_,
    fun p hp hslot => ?_, fun hp hother => ?_, fun p hp hother => ?_⟩⟩
  · exact followEvaluation_target hn ((currentTarget_steady hp).trans hactive)
  · exact followEvaluation_target hn ((currentTarget_pending hp).trans (congrArg some hslot))
  · exact followEvaluation_of_request hn (by rwa [currentTarget_steady hp]) (followRequest_steady hp)
  · have htarget : currentTarget s.engine ≠ some n := by simpa [currentTarget_pending hp] using hother
    refine ⟨fun hactive => ?_, fun hactive => ?_⟩
    · rw [followEvaluation_request hn htarget, followRequest_pending hp, if_pos hactive, if_neg nofun]
    · exact followEvaluation_of_request hn htarget ((followRequest_pending hp).trans (if_neg hactive))

/-! ## A request (R51, R54, R55) -/

theorem ackSetFor_get (s : State) (rs : List Region) (l : Link) : (ackSetFor s rs).get l = true ↔
    ((s.port l).state ≠ .offline ∧ ∃ g ∈ rs, g.owner = some l) := by
  cases l <;> simp [ackSetFor, PerLink.get]

theorem not_nonempty_iff (x : LinkSet) : (!nonempty x) = true ↔ x = ⟨false, false⟩ := by
  obtain ⟨a, b⟩ := x
  cases a <;> cases b <;> simp [nonempty]

theorem steadyRequest_full {n : SlotNo} {s : State} (hcounter : s.engine.epochCounter ≠ lastEpoch)
    (h : allocate (storeMap s.engine.records) (uncarried (activeRecords s.engine) (s.slots.slots.get n).regions) = none)
    (cause : Cause) (who : Option Link) : steadyRequest n cause who s =
      (s, .storeFull (layoutNeed (uncarried (activeRecords s.engine) (s.slots.slots.get n).regions))) := by
  simp only [steadyRequest, if_neg hcounter, h]

theorem steadyRequest_announced {n : SlotNo} {s : State} (hcounter : s.engine.epochCounter ≠ lastEpoch)
    {placed : List (Region × Option Buffers)} (h : allocate (storeMap s.engine.records)
      (uncarried (activeRecords s.engine) (s.slots.slots.get n).regions) = some placed) (cause : Cause)
    (who : Option Link) :
    steadyRequest n cause who s = (announce n cause who (s.slots.slots.get n) placed s, .announced) := by
  simp only [steadyRequest, if_neg hcounter, h]

/-- Settles O20: the three branches of `steadyRequest`, and the fields of the announcement. -/
theorem requestAnnouncesNextEpoch : Obligations.RequestAnnouncesNextEpoch := by
  refine fun n cause who s => ⟨fun hcounter => if_pos hcounter, fun hcounter => ?_⟩
  refine ⟨fun hfull => steadyRequest_full hcounter hfull cause who, fun placed hplaced => ?_⟩
  exact ⟨_, pendingFor n cause who (s.slots.slots.get n) s, steadyRequest_announced hcounter hplaced cause who,
    announce_sameBut n cause who _ placed s, rfl, rfl, rfl, rfl, rfl, rfl, rfl, rfl, rfl, rfl, rfl, rfl, rfl, rfl,
    ackSetFor_get s _, not_nonempty_iff _, rfl, fun l => announce_port n cause who _ placed s l⟩

/-! ## SWITCH (R50, R64) -/

/-- What SWITCH does with the answer to its request. -/
def switchAnswered (l : Link) (tag : Byte) (r : State × RequestResult) : State :=
  match r with
  | (u, .announced) => holdSwitch l tag u
  | (u, .storeFull need) => answer l tag .switch .storeFull (.need need) u
  | (u, .exhausted) => answer l tag .switch .epochExhausted .none u

theorem switchEffect_requests {l : Link} {tag slot : Byte} {n : SlotNo} {s : State} (hn : n.val = slot.toNat)
    (hp : s.engine.pending = none) (hactive : s.engine.active.slot ≠ some n) :
    switchEffect l tag slot s = switchAnswered l tag (steadyRequest n (.switchBy l) (some l) s) := by
  simp only [switchEffect, slotOfByte_of_val hn, hp, Option.isSome_none, hactive, Bool.false_eq_true, if_false]
  rfl

/-- Settles O21: the checks of SWITCH in their order, and the slot held behind an announcement. -/
theorem switchFollowsItsChecks : Obligations.SwitchFollowsItsChecks := by
  refine fun l tag slot s h => ⟨_, slotCommand_runs h tag .switch _, fun hbad => ?_, fun n hn =>
    ⟨fun hp => ?_, fun hp hactive => ?_, fun hp hactive u => ?_⟩⟩
  · rw [switchEffect, slotOfByte_of_ge hbad]
    exact refusedWith_answer l tag .switch .badParam .none s
  · simp only [switchEffect, slotOfByte_of_val hn, arrive_engine, Option.isSome_iff_ne_none.mpr hp, if_true]
    exact refusedWith_answer l tag .switch .transitionPending .none s
  · simp only [switchEffect, slotOfByte_of_val hn, arrive_engine, arrive_scan, hp, Option.isSome_none, hactive,
      Bool.false_eq_true, if_false, if_true]
    exact refusedWith_answer l tag .switch .ok _ s
  · rw [switchEffect_requests hn (by simpa using hp) (by simpa using hactive)]
    refine ⟨fun hu => ?_, fun need hu => ?_, fun hu => ?_⟩
    · obtain rfl := steadyRequest_refused hu nofun
      rw [hu]
      exact refusedWith_answer l tag .switch .epochExhausted .none s
    · obtain rfl := steadyRequest_refused hu nofun
      rw [hu]
      exact refusedWith_answer l tag .switch .storeFull (.need need) s
    · rw [hu]
      exact ⟨modPort_sameBut l (fun p => { p with slot := some (.switch tag) }) u, port_modPort u l _⟩

/-! ## SET-FACE and BIND (R39, R40) -/

theorem faceOfByte_of_gt {b : Byte} (h : 1 < b.toNat) : faceOfByte b = none := by
  have h0 : b.toNat ≠ 0 := by omega
  have h1 : b.toNat ≠ 1 := by omega
  simp [faceOfByte, BitVec.toNat_eq, h0, h1]

theorem faceOfByte_of_cases {b : Byte} {f : Face} (h : (b = 0 ∧ f = .front) ∨ (b = 1 ∧ f = .rear)) :
    faceOfByte b = some f := by
  obtain ⟨rfl, rfl⟩ | ⟨rfl, rfl⟩ := h <;> rfl

theorem exists_faceOfByte {b : Byte} (h : b.toNat ≤ 1) : ∃ f, faceOfByte b = some f := by
  obtain h0 | h1 : b = 0 ∨ b = 1 := by
    simp only [BitVec.toNat_eq]
    exact Nat.le_one_iff_eq_zero_or_eq_one.mp h
  · exact ⟨_, faceOfByte_of_cases (.inl ⟨h0, rfl⟩)⟩
  · exact ⟨_, faceOfByte_of_cases (.inr ⟨h1, rfl⟩)⟩

theorem boundPostureOfByte_of_out {b : Byte} (h : b.toNat = 0 ∨ 3 < b.toNat) : boundPostureOfByte b = none := by
  have h1 : b.toNat ≠ 1 := by omega
  have h2 : b.toNat ≠ 2 := by omega
  have h3 : b.toNat ≠ 3 := by omega
  simp [boundPostureOfByte, BitVec.toNat_eq, h1, h2, h3]

theorem boundPostureOfByte_of_cases {b : Byte} {p : Posture}
    (h : (b = 1 ∧ p = .folded) ∨ (b = 2 ∧ p = .part) ∨ (b = 3 ∧ p = .flat)) : boundPostureOfByte b = some p := by
  obtain ⟨rfl, rfl⟩ | ⟨rfl, rfl⟩ | ⟨rfl, rfl⟩ := h <;> rfl

theorem exists_boundPostureOfByte {b : Byte} (hfrom : 1 ≤ b.toNat) (hto : b.toNat ≤ 3) :
    ∃ p, boundPostureOfByte b = some p := by
  obtain h1 | h2 | h3 : b = 1 ∨ b = 2 ∨ b = 3 := by
    simp only [BitVec.toNat_eq]
    change b.toNat = 1 ∨ b.toNat = 2 ∨ b.toNat = 3
    omega
  · exact ⟨_, boundPostureOfByte_of_cases (.inl ⟨h1, rfl⟩)⟩
  · exact ⟨_, boundPostureOfByte_of_cases (.inr (.inl ⟨h2, rfl⟩))⟩
  · exact ⟨_, boundPostureOfByte_of_cases (.inr (.inr ⟨h3, rfl⟩))⟩

theorem bindingOfByte_of_out {b : Byte} (h : 8 ≤ b.toNat) (hhold : b.toNat ≠ 0xFF) : bindingOfByte b = none := by
  have hne : b ≠ 0xFF := fun heq => hhold (congrArg BitVec.toNat heq)
  rw [bindingOfByte, if_neg hne, slotOfByte_of_ge h]
  rfl

theorem bindingOfByte_of_cases {b : Byte} {x : Binding}
    (h : (b = 0xFF ∧ x = .hold) ∨ (∃ n : SlotNo, n.val = b.toNat ∧ x = .slot n)) : bindingOfByte b = some x := by
  obtain ⟨rfl, rfl⟩ | ⟨n, hn, rfl⟩ := h
  · rfl
  · have hne : b ≠ 0xFF := by
      rintro rfl
      have hlt := n.isLt
      rw [hn] at hlt
      exact absurd hlt (by decide)
    rw [bindingOfByte, if_neg hne, slotOfByte_of_val hn]
    rfl

/-- BIND writes the one entry named, and no other. -/
theorem bindingFor_setBinding {p : Posture} (hp : p ≠ .unknown) (f : Face) (x : Binding) (b : Bindings) :
    bindingFor (setBinding p f x b) p f = some x
      ∧ ∀ p' f', (p', f') ≠ (p, f) → bindingFor (setBinding p f x b) p' f' = bindingFor b p' f' := by
  refine ⟨by cases p <;> cases f <;> first | rfl | exact absurd rfl hp, fun p' f' hne => ?_⟩
  cases p <;> cases f <;> cases p' <;> cases f' <;> first | rfl | exact absurd rfl hne

theorem boundPosture_ne_unknown {b : Byte} {p : Posture}
    (h : (b = 1 ∧ p = .folded) ∨ (b = 2 ∧ p = .part) ∨ (b = 3 ∧ p = .flat)) : p ≠ .unknown := by
  obtain ⟨-, rfl⟩ | ⟨-, rfl⟩ | ⟨-, rfl⟩ := h <;> exact nofun

/-- Settles O18: the checks of each command by its fields, and the write that follow evaluation then reads. -/
theorem setFaceAndBindRunFollowEvaluation : Obligations.SetFaceAndBindRunFollowEvaluation := by
  refine ⟨fun l tag face s h => ⟨_, slotCommand_runs h tag .setFace _, fun hbad => ?_, fun f hf => ?_⟩,
    fun l tag posture face slot s h => ⟨_, slotCommand_runs h tag .bind _, fun hbad => ?_, fun hfrom hto hbad => ?_,
      fun hfrom hto hface hbad hhold => ?_, fun p f x hp hf hx => ?_⟩⟩
  · simp only [setFaceEffect, faceOfByte_of_gt hbad]
    exact refusedWith_answer l tag .setFace .badParam .none s
  · simp only [setFaceEffect, faceOfByte_of_cases hf]
    rfl
  · simp only [bindEffect, boundPostureOfByte_of_out hbad]
    exact refusedWith_answer l tag .bind .badParam (.field 1) s
  · obtain ⟨p, hp⟩ := exists_boundPostureOfByte hfrom hto
    simp only [bindEffect, hp, faceOfByte_of_gt hbad]
    exact refusedWith_answer l tag .bind .badParam (.field 2) s
  · obtain ⟨p, hp⟩ := exists_boundPostureOfByte hfrom hto
    obtain ⟨f, hf⟩ := exists_faceOfByte hface
    simp only [bindEffect, hp, hf, bindingOfByte_of_out hbad hhold]
    exact refusedWith_answer l tag .bind .badParam (.field 3) s
  · obtain ⟨hwritten, hothers⟩ := bindingFor_setBinding (boundPosture_ne_unknown hp) f x s.posture.bindings
    refine ⟨setBinding p f x s.posture.bindings, hwritten, hothers, ?_⟩
    simp only [bindEffect, boundPostureOfByte_of_cases hp, faceOfByte_of_cases hf, bindingOfByte_of_cases hx,
      evaluateAndTell, modPosture_eq, arrive_posture]

/-! ## ABORT (R65, R66, R154) -/

theorem abortWhenOfByte_of_gt {b : Byte} (h : 2 < b.toNat) : abortWhenOfByte b = none := by
  have h0 : b.toNat ≠ 0 := by omega
  have h1 : b.toNat ≠ 1 := by omega
  have h2 : b.toNat ≠ 2 := by omega
  simp [abortWhenOfByte, BitVec.toNat_eq, h0, h1, h2]

theorem exists_abortWhenOfByte {b : Byte} (h : b.toNat ≤ 2) : ∃ w, abortWhenOfByte b = some w := by
  obtain h0 | h1 | h2 : b = 0 ∨ b = 1 ∨ b = 2 := by
    simp only [BitVec.toNat_eq]
    change b.toNat = 0 ∨ b.toNat = 1 ∨ b.toNat = 2
    omega
  · exact ⟨.now, by rw [h0]; rfl⟩
  · exact ⟨.armed .atFrame, by rw [h1]; rfl⟩
  · exact ⟨.armed .atPosture, by rw [h2]; rfl⟩

theorem abortWhenOfByte_of_cases {b : Byte} {c : ArmCondition} (h : (b = 1 ∧ c = .atFrame) ∨ (b = 2 ∧ c = .atPosture)) :
    abortWhenOfByte b = some (.armed c) := by
  obtain ⟨rfl, rfl⟩ | ⟨rfl, rfl⟩ := h <;> rfl

/-- A port whose WAIT an abort ends. -/
def Port.aborted (quiet : Bool) (p : Port) : Port := if quiet then p.emptied else p.finished .aborted .none

theorem abortRunning_switch {l : Link} {s : State} {tag : Byte} (h : (s.port l).slot = some (.switch tag)) (quiet : Bool) :
    abortRunning l quiet s = withdraw .aborted quiet s := by
  simp [abortRunning, h]

theorem abortRunning_wait {l : Link} {s : State} {r : Running} (h : (s.port l).slot = some r)
    (hr : ∀ tag, r ≠ .switch tag) (quiet : Bool) :
    SameBut [.port l] s (abortRunning l quiet s) ∧ (abortRunning l quiet s).port l = (s.port l).aborted quiet := by
  have hrun : abortRunning l quiet s = if quiet then emptySlot l s else finish l .aborted .none s := by
    cases r with
    | switch tag => exact absurd rfl (hr tag)
    | waitFrame tag n => simp only [abortRunning, h]
    | waitPosture tag => simp only [abortRunning, h]
    | waitEpoch tag => simp only [abortRunning, h]
  rw [hrun]
  cases quiet with
  | true => exact ⟨emptySlot_sameBut l s, emptySlot_port l s⟩
  | false => exact ⟨finish_sameBut l .aborted .none s, (finish_port_eq l l .aborted .none s).trans (if_pos rfl)⟩

theorem wait_code {r : Running} (hr : ∀ tag, r ≠ .switch tag) : r.code = 0x61 := by
  cases r <;> first | rfl | exact absurd rfl (hr _)

theorem Port.aborted_eq {p : Port} {r : Running} (h : p.slot = some r) (hr : ∀ tag, r ≠ .switch tag) (quiet : Bool) :
    p.aborted quiet = { p with
      slot := none, armed := none
      responses := p.responses ++ (if quiet = true then []
        else [{ tag := r.tag, code := 0x61, status := .aborted, results := .none }]) } := by
  cases quiet with
  | true => simp [Port.aborted, Port.emptied]
  | false => simp [Port.aborted, Port.finished_of_some h, Port.ended, wait_code hr]

section
variable {l : Link} {tag condition quiet : Byte} {s : State} {r : Running} (hr : (s.port l).slot = some r)
include hr

theorem abortEffect_now (h : abortWhenOfByte condition = some .now) : abortEffect l tag condition quiet s =
    answer l tag .abort .done .none (abortRunning l (decide (quiet ≠ 0)) s) := by
  simp only [abortEffect, h, hr]

theorem abortEffect_arms {c : ArmCondition} (h : abortWhenOfByte condition = some (.armed c)) :
    abortEffect l tag condition quiet s = answer l tag .abort .armed .none
      (s.modPort l (fun p => { p with armed := some { condition := c, quiet := decide (quiet ≠ 0) } })) := by
  simp only [abortEffect, h, hr]

end

/-- Settles O23: the effect of ABORT by its condition and the command that runs. -/
theorem abortActsOnRunningCommand : Obligations.AbortActsOnRunningCommand := by
  intro l tag condition quiet s h
  refine ⟨_, congrArg Host.Outcome.next (takeCommand_taken h _), fun hbad => ?_, fun hok hfree => ?_,
    fun r c hr hc => ?_, fun r hr hwait hc => ?_, fun x p hx hc hp hreq => ?_⟩
  · simp only [abortEffect, abortWhenOfByte_of_gt hbad]
    exact refusedWith_answer l tag .abort .badParam .none s
  · obtain ⟨w, hw⟩ := exists_abortWhenOfByte hok
    simp only [abortEffect, hw, arrive_port_slot, hfree]
    exact refusedWith_answer l tag .abort .idle .none s
  · rw [abortEffect_arms ((arrive_port_slot s l).trans hr) (abortWhenOfByte_of_cases hc)]
    refine ⟨((arrive_sameBut l s).modPort (by simp) _).answer (by simp) tag .abort .armed .none, ?_⟩
    rw [answer_port, port_modPort, arrive_port_responses]
    rfl
  · subst hc
    have hrun := abortRunning_wait (s := arrive l s) ((arrive_port_slot s l).trans hr) hwait (decide (quiet ≠ 0))
    rw [abortEffect_now ((arrive_port_slot s l).trans hr) rfl]
    refine ⟨((arrive_sameBut l s).trans hrun.1).answer (by simp) tag .abort .done .none, ?_⟩
    rw [answer_port, hrun.2, Port.aborted_eq ((arrive_port_slot s l).trans hr) hwait, arrive_port_responses]
    by_cases hq : quiet = 0 <;> simp [hq, commandCode]
  · subst hc
    have hrun := abortRunning_switch (s := arrive l s) ((arrive_port_slot s l).trans hx) (decide (quiet ≠ 0))
    have hport (m : Link) := withdraw_port (s := arrive l s) ((congrArg _ (arrive_engine s l)).trans hp) .aborted
      (decide (quiet ≠ 0)) m
    obtain ⟨-, -, -, hslot, -, -, -, hresponses⟩ := handed_fields (.withdrawn p.epoch p.slot .aborted) ((arrive l s).port l)
    rw [arrive_port_slot] at hslot
    rw [arrive_port_responses] at hresponses
    rw [abortEffect_now ((arrive_port_slot s l).trans hx) rfl, hrun]
    refine ⟨?_, ?_, ?_, ?_⟩
    · exact (((arrive_sameBut l s).mono (by cases l <;> simp)).trans (withdraw_sameBut _ _ _)).answer
        (by cases l <;> simp) tag .abort .done .none
    · rw [(answer_sameBut l tag .abort .done .none _).engine (by simp), withdraw_engine, arrive_engine,
        if_neg (by simp [hp])]
      rfl
    · rw [(answer_sameBut l tag .abort .done .none _).port l.other (by cases l <;> simp [Link.other]), hport,
        arrive_port_other]
      unfold withdrawnPort
      exact if_neg (by rw [hreq]; cases l <;> simp [Link.other])
    · rw [answer_port, hport]
      unfold withdrawnPort
      rw [if_pos hreq]
      by_cases hq : quiet = 0
      · rw [if_neg (by simp [hq]), if_pos hq, Port.finished_of_some (hslot.trans hx)]
        simp [Port.ended, withdrawStatus, hresponses, Running.tag, Running.code, commandCode]
      · rw [if_pos (decide_eq_true hq), if_neg hq]
        simp [Port.emptied, hresponses, commandCode]

/-! ## The records at the switch (R60, R73) -/

theorem gateAtSwitch_eq (r : RuntimeRecord) : gateAtSwitch r = match r.region.content, r.buffers with
    | .double, some b => if b.flipped then .opened else .closed
    | .single, some b => if b.front.valid.count true = 0 then .closed else .opened
    | _, _ => .closed := by
  unfold gateAtSwitch validRows
  cases r.region.content <;> cases r.buffers <;> try rfl
  simp only [Nat.pos_iff_ne_zero, ne_eq, ite_not]

section
variable {s : State} {p : Pending} (h : RecordsOk s) (hp : s.engine.pending = some p)
include h hp

/-- A record of the pending layout is the one of some region of it. -/
theorem exists_region_of_pending {r : RuntimeRecord} (hr : r ∈ s.engine.records) (hm : r.membership ≠ .active) :
    ∃ new ∈ p.regions, recordFor s.engine new = some r ∧ ((r.membership = .both ∧ carries r.region new = true)
      ∨ (r.membership = .pending ∧ r.region = new)) := by
  obtain ⟨-, -, hpending, -, -, hkept⟩ := id h
  have hmem := mem_pendingRecords.mpr ⟨hr, hm⟩
  obtain ⟨new, hnew, htag⟩ := (hkept p hp).2 r hmem
  obtain ⟨q, -, hfound, hcase⟩ := exists_recordFor h hp hnew
  obtain ⟨hq, hqtag⟩ := recordWithTag_eq_some hfound
  obtain rfl := eq_of_recordTag hpending hq hmem (hqtag.trans htag)
  exact ⟨new, hnew, hfound, hcase⟩

omit h hp in
theorem switchRecord_mem {new : Region} (hnew : new ∈ p.regions) {r : RuntimeRecord}
    (hfound : recordFor s.engine new = some r) :
    switchRecord new r ∈ switchedRecords p.regions s.engine.records :=
  List.mem_filterMap.mpr ⟨new, hnew, congrArg (Option.map _) hfound⟩

end

/-- Settles O26: the record of each region of the pending layout, and what the switch makes of it. -/
theorem switchKeepsCarriedRecords : Obligations.SwitchKeepsCarriedRecords := by
  intro s p h hp
  refine ⟨switched_regions h hp, fun r hr hm => ?_, fun r hr hm => ?_, fun q hq => ?_⟩
  · obtain ⟨new, hnew, hfound, ⟨-, hcarries⟩ | ⟨hpending, -⟩⟩ := exists_region_of_pending h hp hr (by simp [hm])
    · exact ⟨new, hnew, hcarries, switchRecord_both hm ▸ switchRecord_mem hnew hfound⟩
    · exact absurd (hm.symm.trans hpending) nofun
  · obtain ⟨new, hnew, hfound, -⟩ := exists_region_of_pending h hp hr (by simp [hm])
    have hmem := switchRecord_mem hnew hfound
    rwa [switchRecord_pending hm, gateAtSwitch_eq] at hmem
  · obtain ⟨new, -, r, hr, hm, htag, rfl⟩ := mem_switchedRecords hq
    refine ⟨r, hr, hm, ?_⟩
    unfold switchRecord
    split
    · exact ⟨htag, rfl, rfl⟩
    · exact ⟨rfl, rfl, rfl⟩

/-! ## A packet is handled on the state its arrival leaves -/

section
variable {l : Link} {s : State}

theorem takePacket_cases (e : State → State) : takePacket l e s = s ∨ takePacket l e s = e (arrive l s) := by
  by_cases h : TakesPackets s
  · exact .inr (takePacket_running h l e)
  · exact .inl (takePacket_inReset h l e)

theorem takeCommand_cases (e : State → State) :
    SameBut [.port l] s (takeCommand l e s) ∨ takeCommand l e s = e (arrive l s) := by
  by_cases h : TakesPackets s
  · by_cases hroom : (s.port l).responses.length < 8
    · exact .inr (takeCommand_taken ⟨h, hroom⟩ e)
    · rw [takeCommand_full h (Nat.le_of_not_lt hroom)]
      exact .inl ((arrive_sameBut l s).count (by simp) .overrun)
  · rw [takeCommand_inReset h]
    exact .inl (.refl _ s)

theorem slotCommand_cases (tag : Byte) (c : Command) (e : State → State) :
    SameBut [.port l] s (slotCommand l tag c e s) ∨ slotCommand l tag c e s = e (arrive l s) := by
  by_cases h : TakesCommand l s
  · cases hr : (s.port l).slot with
    | none => exact .inr (slotCommand_free ⟨h, hr⟩ tag c e)
    | some r =>
      rw [slotCommand_busy h hr]
      exact .inl ((arrive_sameBut l s).answer (by simp) tag c .busy _)
  · by_cases hs : TakesPackets s
    · have hfull : 8 ≤ (s.port l).responses.length := Nat.le_of_not_lt fun hroom => h ⟨hs, hroom⟩
      rw [slotCommand, takeCommand_full hs hfull]
      exact .inl ((arrive_sameBut l s).count (by simp) .overrun)
    · rw [slotCommand_inReset hs]
      exact .inl (.refl _ s)

/-- What a packet does once it is let through. -/
def PacketDoes (i : Instr) (l : Link) (u t : State) : Prop :=
  (∃ tag c, slotUser i = some (l, tag, c) ∧ t = slotEffect i u) ∨ (immediateLink i = some l ∧ t = immediateEffect i u)
    ∨ (pixelLink i = some l ∧ t = pixelEffect i u) ∨ ∃ tag, i = .portReset l tag ∧ t = portResetEffect l tag u

/-- A packet changes its port, or does what it does on a state that differs from the first in its port and the level of
CUTOFF last known. -/
theorem packet_cases {i : Instr} {t : State} (hi : packetLink i = some l) (ht : exec i s = .next t) :
    SameBut [.port l, .cutoffInput] s t ∨ ∃ u, SameBut [.port l, .cutoffInput] s u ∧ PacketDoes i l u t := by
  have harrive : SameBut [.port l, .cutoffInput] s (arrive l s) := (arrive_sameBut l s).mono (by simp)
  obtain ⟨tag, c, hc⟩ | hc | ⟨tag, rfl⟩ | hc := packetLink_cases hi
  · obtain rfl := Host.Outcome.next.inj ((exec_slotUser hc s).symm.trans ht)
    by_cases hs : TakesPackets s
    · rw [unlessHeld_running hs]
      have hlevel := (withCutoffInput_sameBut (levelAfter i s.cutoffInput) s).mono
        (d := [.port l, .cutoffInput]) (by simp)
      obtain h | h := slotCommand_cases (l := l) (s := { s with cutoffInput := levelAfter i s.cutoffInput }) tag c
        (slotEffect i)
      · exact .inl (hlevel.trans (h.mono (by simp)))
      · exact .inr ⟨_, hlevel.trans ((arrive_sameBut l _).mono (by simp)), .inl ⟨tag, c, hc, h⟩⟩
    · rw [unlessHeld_inReset hs]
      exact .inl (.refl _ s)
  · obtain rfl := Host.Outcome.next.inj ((exec_immediate hc s).symm.trans ht)
    obtain h | h := takeCommand_cases (l := l) (s := s) (immediateEffect i)
    · exact .inl (h.mono (by simp))
    · exact .inr ⟨_, harrive, .inr (.inl ⟨hc, h⟩)⟩
  · obtain rfl := Host.Outcome.next.inj ((exec_portReset l tag s).symm.trans ht)
    by_cases hs : TakesPackets s
    · rw [unlessHeld_running hs]
      unfold portResetBody
      split
      · exact .inl (harrive.count (by simp) .overrun)
      · exact .inr ⟨s, .refl _ s, .inr (.inr (.inr ⟨tag, rfl, rfl⟩))⟩
    · rw [unlessHeld_inReset hs]
      exact .inl (.refl _ s)
  · obtain rfl := Host.Outcome.next.inj ((exec_pixel hc s).symm.trans ht)
    obtain h | h := takePacket_cases (l := l) (s := s) (pixelEffect i)
    · rw [h]
      exact .inl (.refl _ s)
    · exact .inr ⟨_, harrive, .inr (.inr (.inl ⟨hc, h⟩))⟩

end

/-! ## A slot in use is not rewritten (R8, R10, R12) -/

/-- A content of a slot that is not in use may be written; every other is kept. -/
def KeepsInUse (s t : State) : Prop :=
  ∀ n, slotUse s.engine n ≠ .none → t.slots.slots.get n = s.slots.slots.get n

theorem keepsInUse_of_slots {s t : State} (h : t.slots.slots = s.slots.slots) : KeepsInUse s t := fun _ _ => by rw [h]

theorem KeepsInUse.answer {l : Link} {s t : State} (h : KeepsInUse s t) (tag : Byte) (c : Command) (st : Status)
    (r : Results) : KeepsInUse s (answer l tag c st r t) := h

theorem keepsInUse_commit {l : Link} {tag : Byte} {s : State} : KeepsInUse s (stageCommitEffect l tag s) := by
  have hsame : KeepsInUse s s := keepsInUse_of_slots rfl
  unfold stageCommitEffect
  split
  · exact hsame
  · next st _ =>
    split
    · exact hsame
    · split
      · exact hsame
      · next hunused =>
        split
        · exact hsame
        · split
          · exact hsame
          · split
            · exact hsame
            · intro n hn
              have hne : n ≠ st.slot := fun heq => hn (heq ▸ not_not.mp hunused)
              exact (setLayout_get _ _ _ _).trans (if_neg hne)

theorem slotEffect_keepsInUse {i : Instr} {l : Link} {tag : Byte} {c : Command} (h : slotUser i = some (l, tag, c))
    (s : State) : KeepsInUse s (slotEffect i s) := by
  have hsame : KeepsInUse s s := keepsInUse_of_slots rfl
  have hframe := slotEffect_sameBut h s
  cases i <;> cases h
  case stageOpen.refl =>
    simp only [slotEffect, stageOpenEffect]
    repeat' split
    all_goals exact hsame
  case stageRegion.refl =>
    simp only [slotEffect, stageRegionEffect]
    repeat' split
    all_goals exact hsame
  case stageCommit.refl => exact keepsInUse_commit
  case stageDrop.refl =>
    simp only [slotEffect, stageDropEffect]
    split <;> exact hsame
  case slotsOpen.refl =>
    simp only [slotEffect, slotsOpenEffect]
    repeat' split
    all_goals exact hsame
  case slotsClose.refl =>
    simp only [slotEffect, slotsCloseEffect]
    repeat' split
    all_goals exact hsame
  case slotsFreeze.refl =>
    simp only [slotEffect, slotsFreezeEffect]
    split <;> exact hsame
  all_goals exact keepsInUse_of_slots (congrArg (·.slots) (hframe.slots (by simp [changedBy])))

/-- Settles O11: of all commands STAGE-COMMIT alone writes a slot, and it refuses one in use. -/
theorem slotInUseIsNotRewritten : Obligations.SlotInUseIsNotRewritten := by
  intro i s t n ht hpower hbytes hn
  refine (?_ : KeepsInUse s t) n hn
  cases hp : packetLink i with
  | some l =>
    obtain h | ⟨u, hu, ⟨tag, c, hc, rfl⟩ | ⟨hc, rfl⟩ | ⟨hc, rfl⟩ | ⟨tag, rfl, rfl⟩⟩ := packet_cases hp ht
    · exact keepsInUse_of_slots (congrArg (·.slots) (h.slots (by simp)))
    · intro n hn
      have hengine := hu.engine (by simp)
      rw [slotEffect_keepsInUse hc u n (by rwa [hengine]), hu.slots (by simp)]
    · have hslots := (immediateEffect_sameBut hc u).slots (by cases i <;> cases hc <;> simp [changedBy])
      exact keepsInUse_of_slots (congrArg (·.slots) (hslots.trans (hu.slots (by simp))))
    · have hslots := (pixelEffect_sameBut hc u).slots (by cases i <;> cases hc <;> simp [changedBy])
      exact keepsInUse_of_slots (congrArg (·.slots) (hslots.trans (hu.slots (by simp))))
    · have hslots : (portResetEffect l tag u).slots.slots = u.slots.slots := by
        unfold portResetEffect
        dsimp only
        split <;> rfl
      exact keepsInUse_of_slots (hslots.trans (congrArg (·.slots) (hu.slots (by simp))))
  | none =>
    cases hr : takenInReset i with
    | false =>
      obtain rfl := Host.Outcome.next.inj ((exec_event hp hr s).symm.trans ht)
      refine keepsInUse_of_slots (unlessHeld_keeps (P := fun t => t.slots.slots = s.slots.slots) rfl fun _ => ?_)
      exact congrArg (·.slots) ((eventEffect_sameBut hp hbytes s).slots (by
        cases i <;> simp_all [changedBy, packetLink, commandLink, slotUser, takenInReset, isBytes]))
    | true =>
      cases i <;> cases hr <;> obtain rfl := Host.Outcome.next.inj ht
      case true.powerOnReset.refl => exact absurd rfl hpower
      case true.resetInput.refl => exact keepsInUse_of_slots rfl
      case true.resetEnd.refl =>
        split
        · exact keepsInUse_of_slots rfl
        · exact keepsInUse_of_slots rfl
      case true.protectPulse.refl =>
        split
        · exact keepsInUse_of_slots rfl
        · exact keepsInUse_of_slots rfl

end Sys2Proof.Machine
end

section
/-! PROOFS. What only a frame start, a rising edge of HINGE or a reset changes: the active layout, the posture, the
buffers shown (sections 2.4, 3.4, 4.4); and the resolution of an epoch and tag (section 3.7). -/

namespace Sys2Proof.Machine

/-! ## Resolution (R71) -/

theorem recordWithTag_iff {rs : List RuntimeRecord} (h : rs.Pairwise (fun x y => x.region.tag ≠ y.region.tag)) (t : Nat)
    (r : RuntimeRecord) : recordWithTag t rs = some r ↔ r ∈ rs ∧ r.region.tag = t := by
  refine ⟨recordWithTag_eq_some, fun ⟨hr, htag⟩ => ?_⟩
  cases hfound : recordWithTag t rs with
  | none => exact absurd (List.find?_eq_none.mp hfound r hr) (by simpa using htag)
  | some q =>
    obtain ⟨hq, hqtag⟩ := recordWithTag_eq_some hfound
    exact congrArg some (eq_of_recordTag h hq hr (hqtag.trans htag.symm))

theorem pendingEpoch_eq_some {e : Engine} {epoch : Word} :
    pendingEpoch e = some epoch ↔ ∃ p, e.pending = some p ∧ p.epoch = epoch := Option.map_eq_some_iff

theorem resolve_of_out {e : Engine} {epoch : Word} {tag : Byte} (h : tag.toNat = 0 ∨ 15 < tag.toNat) :
    resolve e epoch tag = none := by
  simp [resolve, tagOfByte_of_out h]

theorem resolve_of_pending {e : Engine} {epoch : Word} {tag : Byte} (hfrom : 1 ≤ tag.toNat) (hto : tag.toNat ≤ 15)
    (h : pendingEpoch e = some epoch) : resolve e epoch tag = recordWithTag tag.toNat (pendingRecords e) := by
  simp [resolve, tagOfByte_of_range hfrom hto, h]

theorem resolve_of_active {e : Engine} {epoch : Word} {tag : Byte} (hfrom : 1 ≤ tag.toNat) (hto : tag.toNat ≤ 15)
    (h : pendingEpoch e ≠ some epoch) (r : RuntimeRecord) : resolve e epoch tag = some r ↔
      recordWithTag tag.toNat (activeRecords e) = some r ∧ r.entryEpoch ≤ epoch ∧ epoch ≤ e.activeEpoch := by
  simp only [resolve, tagOfByte_of_range hfrom hto, if_neg h]
  cases recordWithTag tag.toNat (activeRecords e) with
  | none => simp
  | some q =>
    simp only [Option.some.injEq, Option.ite_none_right_eq_some]
    constructor
    · rintro ⟨hepoch, rfl⟩
      exact ⟨rfl, hepoch⟩
    · rintro ⟨rfl, hepoch⟩
      exact ⟨hepoch, rfl⟩

/-- Settles O33: the two tables that resolution searches, each naming one record by its tag. -/
theorem resolveFollowsEpochs : Obligations.ResolveFollowsEpochs := by
  intro e epoch tag hactive hpending r
  by_cases hrange : 1 ≤ tag.toNat ∧ tag.toNat ≤ 15
  · obtain ⟨hfrom, hto⟩ := hrange
    by_cases hp : pendingEpoch e = some epoch
    · have hp' := pendingEpoch_eq_some.mp hp
      have hnot : ¬ ∀ p, e.pending = some p → p.epoch ≠ epoch := fun hall => by
        obtain ⟨p, hpend, hepoch⟩ := hp'
        exact hall p hpend hepoch
      rw [resolve_of_pending hfrom hto hp, recordWithTag_iff hpending, mem_pendingRecords]
      simp only [hfrom, hto, hp', hnot, true_and, false_and, or_false]
      tauto
    · have hp' : ∀ p, e.pending = some p → p.epoch ≠ epoch := fun p hpend hepoch =>
        hp (pendingEpoch_eq_some.mpr ⟨p, hpend, hepoch⟩)
      have hnot : ¬ ∃ p, e.pending = some p ∧ p.epoch = epoch := fun ⟨p, hpend, hepoch⟩ => hp' p hpend hepoch
      rw [resolve_of_active hfrom hto hp, recordWithTag_iff hactive, mem_activeRecords]
      simp only [hfrom, hto, hnot, true_and, false_and, false_or]
      tauto
  · rw [resolve_of_out (by omega)]
    exact iff_of_false nofun fun ⟨hfrom, hto, _⟩ => hrange ⟨hfrom, hto⟩

/-! ## What keeps the active layout and the buffers shown -/

/-- Between two engines the active layout is the same, and every active DOUBLE region shows the same buffer. -/
def ActiveKept (e f : Engine) : Prop :=
  f.active = e.active ∧ f.activeEpoch = e.activeEpoch
    ∧ ∀ r ∈ e.records, r.membership ≠ .pending → r.region.content = .double →
      ∃ q ∈ f.records, q.membership ≠ .pending ∧ q.region = r.region
        ∧ q.buffers.map (·.front) = r.buffers.map (·.front)

theorem ActiveKept.refl (e : Engine) : ActiveKept e e := ⟨rfl, rfl, fun r hr hm _ => ⟨r, hr, hm, rfl, rfl⟩⟩

theorem ActiveKept.of_eq {e f : Engine} (h : f = e) : ActiveKept e f := h ▸ .refl e

theorem ActiveKept.trans {e f g : Engine} (h1 : ActiveKept e f) (h2 : ActiveKept f g) : ActiveKept e g := by
  obtain ⟨hactive, hepoch, hfronts⟩ := h1
  obtain ⟨hactive', hepoch', hfronts'⟩ := h2
  refine ⟨hactive'.trans hactive, hepoch'.trans hepoch, fun r hr hm hc => ?_⟩
  obtain ⟨q, hq, hqm, hregion, hfront⟩ := hfronts r hr hm hc
  obtain ⟨x, hx, hxm, hregion', hfront'⟩ := hfronts' q hq hqm (hregion ▸ hc)
  exact ⟨x, hx, hxm, hregion'.trans hregion, hfront'.trans hfront⟩

theorem ActiveKept.of_map {e f : Engine} (hactive : f.active = e.active) (hepoch : f.activeEpoch = e.activeEpoch)
    {change : RuntimeRecord → RuntimeRecord}
    (h : ∀ r ∈ e.records, r.membership ≠ .pending → r.region.content = .double → change r ∈ f.records
      ∧ (change r).membership ≠ .pending ∧ (change r).region = r.region
      ∧ (change r).buffers.map (·.front) = r.buffers.map (·.front)) : ActiveKept e f :=
  ⟨hactive, hepoch, fun r hr hm hc => ⟨change r, h r hr hm hc⟩⟩

theorem activeKept_withdrawn (e : Engine) : ActiveKept e (withdrawnEngine e) :=
  .of_map (change := returnCarried) rfl rfl fun r hr hm _ =>
    ⟨List.mem_map_of_mem (mem_activeRecords.mpr ⟨hr, hm⟩), by simp [returnCarried_membership hm],
      returnCarried_region r, congrArg _ (returnCarried_buffers r)⟩

theorem activeKept_withdraw (reason : WithdrawReason) (quiet : Bool) (s : State) :
    ActiveKept s.engine (withdraw reason quiet s).engine := by
  rw [withdraw_engine]
  split
  · exact .refl _
  · exact activeKept_withdrawn _

theorem activeKept_announced (p : Pending) (placed : List (Region × Option Buffers)) (e : Engine) :
    ActiveKept e (announcedEngine p placed e) :=
  .of_map (change := markCarried p.regions) rfl rfl fun r hr hm _ =>
    ⟨List.mem_append_left _ (List.mem_map_of_mem hr), by
      obtain ⟨-, h⟩ | ⟨-, h⟩ := markCarried_cases p.regions r <;> simp [h, hm],
      markCarried_region _ r, congrArg _ (markCarried_buffers _ r)⟩

theorem activeKept_request (n : SlotNo) (cause : Cause) (who : Option Link) (s : State) :
    ActiveKept s.engine (steadyRequest n cause who s).1.engine := by
  obtain ⟨hsame, -⟩ | ⟨placed, -, -, hrun⟩ := steadyRequest_cases n cause who s
  · rw [hsame]
    exact .refl _
  · rw [hrun]
    exact activeKept_announced _ _ _

theorem activeKept_followRequest (n : SlotNo) (cause : Cause) (s : State) :
    ActiveKept s.engine (followRequest n cause s).1.engine := by
  unfold followRequest
  split
  · exact activeKept_request _ _ _ _
  · dsimp only
    split
    · exact activeKept_withdraw _ _ _
    · exact (activeKept_withdraw _ _ _).trans (activeKept_request _ _ _ _)

theorem activeKept_followEvaluation (cause : Cause) (s : State) :
    ActiveKept s.engine (followEvaluation cause s).1.engine := by
  unfold followEvaluation
  split
  · exact .refl _
  · exact .refl _
  · split
    · exact .refl _
    · dsimp only
      split
      · exact (activeKept_followRequest _ cause s).trans (.of_eq (modPosture_engine _ _))
      · exact activeKept_followRequest _ cause s

theorem activeKept_evaluateAndTell (cause : Cause) (reason : PostureReason) (s : State) :
    ActiveKept s.engine (evaluateAndTell cause reason s).1.engine :=
  (activeKept_followEvaluation cause s).trans (.of_eq ((notifyBoth_sameBut _ _).engine (by simp)))

theorem activeKept_abortRunning (l : Link) (quiet : Bool) (s : State) :
    ActiveKept s.engine (abortRunning l quiet s).engine := by
  obtain h | h := abortRunning_engine l quiet s
  · exact .of_eq h
  · exact h ▸ activeKept_withdrawn _

theorem activeKept_abortArmed (c : ArmCondition) (l : Link) (s : State) :
    ActiveKept s.engine (abortArmed c l s).engine := by
  obtain h | h := abortArmed_engine c l s
  · exact .of_eq h
  · exact h ▸ activeKept_withdrawn _

theorem activeKept_tellPosture (l : Link) (first : Bool) (s : State) :
    ActiveKept s.engine (tellPosture l first s).engine := by
  have done (u : State) : ActiveKept u.engine (postureWaitDone l u).engine :=
    .of_eq ((postureWaitDone_sameBut l u).engine (by simp))
  unfold tellPosture
  split
  · exact (activeKept_abortArmed _ _ _).trans (done _)
  · exact (done s).trans (activeKept_abortArmed _ _ _)

theorem activeKept_postureChange (order : LinkSet) (s : State) :
    ActiveKept s.engine (postureChange order s).engine :=
  (activeKept_evaluateAndTell _ _ _).trans ((activeKept_tellPosture _ _ _).trans (activeKept_tellPosture _ _ _))

theorem activeKept_acceptSample (period high : Nat) (order : LinkSet) (s : State) :
    ActiveKept s.engine (acceptSample period high order s).engine := by
  have hseen := ActiveKept.of_eq ((afterDwell_sameBut period high s).engine (by simp))
  cases h : changesPosture (seenSample period high s.posture) (candidateNow (seenSample period high s.posture)) with
  | false =>
    rw [acceptSample_of_stays period high s order h]
    exact hseen.trans (.of_eq (modPosture_engine _ _))
  | true =>
    rw [acceptSample_of_changes period high s order h]
    exact hseen.trans ((activeKept_postureChange order _).trans (.of_eq (modPosture_engine _ _)))

theorem activeKept_risingEdge (ticks : Nat) (order : LinkSet) (s : State) :
    ActiveKept s.engine (risingEdge ticks order s).engine := by
  cases hm : s.posture.measurement with
  | none =>
    rw [risingEdge_first hm]
    exact .refl _
  | some m =>
    cases hacc : acceptable (stopCount ticks) (m.high.getD (stopCount ticks)) with
    | false =>
      rw [risingEdge_rejected hm hacc]
      exact .refl _
    | true =>
      rw [risingEdge_accepted hm hacc]
      exact activeKept_acceptSample _ _ order (modPosture newPeriod s)

/-- The front buffer that a change of a record's buffers leaves. -/
theorem front_modBuffers {f : Buffers → Buffers} (h : ∀ b, (f b).front = b.front) (r : RuntimeRecord) :
    (modBuffers f r).buffers.map (·.front) = r.buffers.map (·.front) := by
  unfold modBuffers
  rw [Option.map_map]
  exact Option.map_congr fun b _ => h b

theorem clearFront_front {m : Membership} (hm : m ≠ .pending) {b : Buffers} (hb : b.back ≠ none) :
    (clearFront m b).front = b.front := by
  rw [clearFront, if_neg (by simp [hm, hb])]

/-- A command keeps the active layout, and where the records keep their laws the buffers shown as well. -/
def KeepsLayout (s t : State) : Prop :=
  (t.engine.active = s.engine.active ∧ t.engine.activeEpoch = s.engine.activeEpoch)
    ∧ (RecordsOk s → ActiveKept s.engine t.engine)

theorem ActiveKept.keepsLayout {s t : State} (h : ActiveKept s.engine t.engine) : KeepsLayout s t :=
  ⟨⟨h.1, h.2.1⟩, fun _ => h⟩

theorem keepsLayout_of_engine {s t : State} (h : t.engine = s.engine) : KeepsLayout s t :=
  ActiveKept.keepsLayout (.of_eq h)

theorem KeepsLayout.answer {l : Link} {s t : State} (h : KeepsLayout s t) (tag : Byte) (c : Command) (st : Status)
    (r : Results) : KeepsLayout s (answer l tag c st r t) := h

/-- A DOUBLE record holds a back buffer. -/
theorem back_ne_none {s : State} (h : RecordsOk s) {r : RuntimeRecord} (hr : r ∈ s.engine.records)
    (hc : r.region.content = .double) {b : Buffers} (hb : r.buffers = some b) : b.back ≠ none := by
  obtain ⟨-, hbuffers, -⟩ := h.1 r hr
  obtain ⟨hc', -⟩ | ⟨hc', -⟩ | ⟨-, x, hx, -, -, hsome, -⟩ := (buffersOk_iff _ _ _).mp hbuffers
  · exact absurd (hc.symm.trans hc') nofun
  · exact absurd (hc.symm.trans hc') nofun
  · exact Option.some.inj (hx.symm.trans hb) ▸ hsome

/-- A change of one record that leaves the front buffer of a DOUBLE one alone keeps the buffers shown. -/
theorem keepsLayout_updateRecord {s : State} {r : RuntimeRecord} (hr : r ∈ s.engine.records)
    {f : RuntimeRecord → RuntimeRecord} (hf : RecordsOk s → r.membership ≠ .pending → r.region.content = .double →
      (f r).membership ≠ .pending ∧ (f r).region = r.region ∧ (f r).buffers.map (·.front) = r.buffers.map (·.front)) :
    KeepsLayout s (updateRecord r f s) := by
  refine ⟨⟨rfl, rfl⟩, fun hok => .of_map (change := fun q => if sameRecord r q then f q else q) rfl rfl
    fun q hq hm hc => ⟨List.mem_map_of_mem hq, ?_⟩⟩
  split
  · next hsame =>
    obtain rfl := hok.sameRecord_eq hr hq hsame
    exact hf hok hm hc
  · exact ⟨hm, rfl, rfl⟩

theorem keepsLayout_updateBuffers {s : State} {r : RuntimeRecord} (hr : r ∈ s.engine.records) {f : Buffers → Buffers}
    (hf : ∀ b, (f b).front = b.front) : KeepsLayout s (updateRecord r (modBuffers f) s) :=
  keepsLayout_updateRecord hr fun _ hm _ => ⟨hm, rfl, front_modBuffers hf r⟩

theorem keepsLayout_regionClear (l : Link) (tag region which : Byte) (s : State) :
    KeepsLayout s (regionClearEffect l tag region which s) := by
  have hsame : KeepsLayout s s := keepsLayout_of_engine rfl
  have hclear (t : Nat) (w : Which) : KeepsLayout s (clearRegions l t w s) := by
    refine ⟨⟨rfl, rfl⟩, fun hok => .of_map (change := fun r => if clearsRecord l t w r then clearRecord w r else r)
      rfl rfl fun r hr hm hc => ⟨List.mem_map_of_mem hr, ?_⟩⟩
    split
    · refine ⟨hm, rfl, ?_⟩
      cases hb : r.buffers with
      | none => simp [clearRecord, modBuffers, hb]
      | some b =>
        have hback := back_ne_none hok hr hc hb
        have hback' : (clearBack b).back ≠ none := by simpa [clearBack] using hback
        cases w with
        | front => simp [clearRecord_front, modBuffers, hb, clearFront_front hm hback]
        | back => simp [clearRecord_back, modBuffers, hb, clearBack]
        | both =>
          simp only [clearRecord_both, modBuffers, hb, Option.map_some, clearFront_front hm hback']
          rfl
    · exact ⟨hm, rfl, rfl⟩
  unfold regionClearEffect
  split
  · dsimp only
    split
    · exact hsame
    · split
      · exact hsame
      · split
        · exact hsame
        · exact hclear _ _
  · exact hsame

theorem keepsLayout_storeLine {l : Link} {r : RuntimeRecord} {s : State} (hr : r ∈ s.engine.records) (p : Line) :
    KeepsLayout s (storeLine l r p s) := by
  have hsame : KeepsLayout s s := keepsLayout_of_engine rfl
  have hstore (m : List PixelCell) {f : RuntimeRecord → RuntimeRecord} (h : KeepsLayout s (updateRecord r f s)) :
      KeepsLayout s (updateRecord r f { s with store := m }) := h
  unfold storeLine
  dsimp only
  split
  · exact hsame
  · split
    · exact hsame
    · next bufs hb =>
      split
      · next hnone =>
        exact hstore _ (keepsLayout_updateRecord hr fun hok _ hc => absurd hnone (back_ne_none hok hr hc hb))
      · split
        · exact hsame
        · split
          · exact hsame
          · exact hstore _ (keepsLayout_updateBuffers hr fun _ => rfl)

theorem resolve_mem {e : Engine} {epoch : Word} {tag : Byte} {r : RuntimeRecord} (h : resolve e epoch tag = some r) :
    r ∈ e.records := by
  unfold resolve at h
  split at h
  · cases h
  · split at h
    · exact (mem_pendingRecords.mp (recordWithTag_mem h)).1
    · split at h
      · cases h
      · next q hq =>
        split at h
        · exact Option.some.inj h ▸ (mem_activeRecords.mp (recordWithTag_mem hq)).1
        · cases h

theorem keepsLayout_mark (l : Link) (region : Byte) (epoch : Word) {effect : RuntimeRecord → State → State} (s : State)
    (h : ∀ r ∈ s.engine.records, KeepsLayout s (effect r s)) : KeepsLayout s (markEffect l region epoch effect s) := by
  have hsame : KeepsLayout s s := keepsLayout_of_engine rfl
  unfold markEffect
  split
  · exact hsame
  · next r hr =>
    split
    · exact hsame
    · split
      · exact hsame
      · exact h r (resolve_mem hr)

theorem keepsLayout_endChecked {l : Link} {r : RuntimeRecord} {s : State} (hr : r ∈ s.engine.records) :
    KeepsLayout s (endChecked l r s) := by
  unfold endChecked endFrame
  split
  · exact keepsLayout_of_engine rfl
  · split
    · next hm => exact keepsLayout_updateRecord hr fun _ hactive => absurd hm hactive
    · exact keepsLayout_updateBuffers hr fun _ => rfl

theorem pixelEffect_keepsLayout {i : Instr} {l : Link} (h : pixelLink i = some l) (s : State) :
    KeepsLayout s (pixelEffect i s) := by
  cases i <;> cases h
  case line.refl p =>
    simp only [pixelEffect, lineEffect]
    split
    · exact keepsLayout_of_engine rfl
    · next r hr =>
      split
      · exact keepsLayout_of_engine ((streamLine_sameBut l s r p).engine (by simp))
      · split
        · exact keepsLayout_of_engine rfl
        · exact keepsLayout_storeLine (resolve_mem hr) p
  case beginMark.refl region epoch =>
    exact keepsLayout_mark l region epoch s fun r hr => keepsLayout_updateBuffers hr fun _ => rfl
  case endMark.refl region epoch =>
    exact keepsLayout_mark l region epoch s fun r hr => keepsLayout_endChecked hr

theorem slotEffect_keepsLayout {i : Instr} {l : Link} {tag : Byte} {c : Command} (h : slotUser i = some (l, tag, c))
    (s : State) : KeepsLayout s (slotEffect i s) := by
  have hframe := slotEffect_sameBut h s
  cases i <;> cases h
  case setFace.refl face =>
    simp only [slotEffect, setFaceEffect]
    split
    · exact keepsLayout_of_engine rfl
    · exact ActiveKept.keepsLayout (s := s) (activeKept_evaluateAndTell .face .face (modPosture _ s))
  case bind.refl posture face slot =>
    simp only [slotEffect, bindEffect]
    split
    · exact keepsLayout_of_engine rfl
    · split
      · exact keepsLayout_of_engine rfl
      · split
        · exact keepsLayout_of_engine rfl
        · exact ActiveKept.keepsLayout (s := s) (activeKept_evaluateAndTell .bind .bind (modPosture _ s))
  case switch.refl slot =>
    simp only [slotEffect, switchEffect]
    split
    · exact keepsLayout_of_engine rfl
    · next n _ =>
      split
      · exact keepsLayout_of_engine rfl
      · split
        · exact keepsLayout_of_engine rfl
        · have hrequest := activeKept_request n (.switchBy l) (some l) s
          split <;> next heq =>
            rw [heq] at hrequest
            exact ActiveKept.keepsLayout hrequest
  case setAckWindow.refl n =>
    simp only [slotEffect, setAckWindowEffect]
    split
    · exact ActiveKept.keepsLayout ⟨rfl, rfl, fun r hr hm _ => ⟨r, hr, hm, rfl, rfl⟩⟩
    · exact keepsLayout_of_engine rfl
  case regionClear.refl region which => exact keepsLayout_regionClear l tag region which s
  all_goals exact keepsLayout_of_engine (hframe.engine (by simp [changedBy]))

theorem immediateEffect_keepsLayout {i : Instr} {l : Link} (h : immediateLink i = some l) (s : State) :
    KeepsLayout s (immediateEffect i s) := by
  have hframe := immediateEffect_sameBut h s
  cases i <;> cases h
  case ackEpoch.refl tag epoch =>
    simp only [immediateEffect, ackEpochEffect]
    split
    · exact keepsLayout_of_engine rfl
    · split
      · exact ActiveKept.keepsLayout ⟨rfl, rfl, fun r hr hm _ => ⟨r, hr, hm, rfl, rfl⟩⟩
      · exact keepsLayout_of_engine rfl
  case abort.refl tag condition quiet =>
    simp only [immediateEffect, abortEffect]
    split
    · exact keepsLayout_of_engine rfl
    · split
      · exact keepsLayout_of_engine rfl
      · split
        · exact ActiveKept.keepsLayout (s := s) (activeKept_abortRunning l _ s)
        · exact keepsLayout_of_engine rfl
  all_goals exact keepsLayout_of_engine (hframe.engine (by simp [changedBy]))

theorem portReset_keepsLayout (l : Link) (tag : Byte) (s : State) : KeepsLayout s (portResetEffect l tag s) := by
  have hengine : (portResetEffect l tag s).engine = portResetEngine l s.engine := by
    unfold portResetEffect
    dsimp only
    split <;> rfl
  refine ActiveKept.keepsLayout (hengine ▸ .of_map (change := closeStreamed l) rfl rfl fun r hr hm hc =>
    ⟨List.mem_map_of_mem hr, ?_⟩)
  have hsame : closeStreamed l r = r := if_neg fun hclosed =>
    absurd (hc.symm.trans hclosed.1 : Content.double = .streamed) (by decide)
  rw [hsame]
  exact ⟨hm, rfl, rfl⟩

theorem activeKept_opensGates {e f : Engine} (h : OpensGates e f) : ActiveKept e f := by
  obtain ⟨change, rfl, hchange⟩ := h
  refine .of_map (change := change) rfl rfl fun r hr hm _ => ⟨List.mem_map_of_mem hr, ?_⟩
  obtain heq | ⟨-, heq⟩ := hchange r <;> rw [heq] <;> exact ⟨hm, rfl, rfl⟩

theorem endOfRow_engine (l : Link) (row : Nat) (s : State) : (endOfRow l row s).engine = s.engine :=
  examineOn_engine l row Config.panelColumns s

theorem scanRow_engine (row : Nat) (s : State) :
    (scanRow row s).engine = (scanSegments row (rowSegments row s.engine) s).1.engine := by
  simp only [scanRow, endOfRow_engine]

/-- The events that are no frame start and no reset keep the active layout and the buffers shown. -/
theorem eventEffect_activeKept {i : Instr} (hp : packetLink i = none) (hb : isBytes i = false)
    (hf : isFrameStart i = false) (s : State) : ActiveKept s.engine (eventEffect i s).engine := by
  have hframe := eventEffect_sameBut hp hb s
  cases i
  case hingeRise ticks order => exact activeKept_risingEdge ticks order s
  case rowScan =>
    simp only [eventEffect]
    split
    · exact .refl _
    · next row _ =>
      rw [scanRow_engine]
      exact activeKept_opensGates (scanSegments_opensGates row _ s)
  case frameStart | ackWindowExpiry | quietDetect | waitFrameDone => cases hf
  case powerOnReset | resetInput | resetEnd | protectPulse => exact .refl _
  case badPacket => cases hb
  case cutoffAssert | hingeFall | sensorTimeout | touchReadStart | touchReadTimeout | touchReport | responseSent =>
    exact .of_eq (hframe.engine (by simp [changedBy]))
  all_goals cases hp

theorem PacketDoes.keepsLayout {i : Instr} {l : Link} {u t : State} (h : PacketDoes i l u t) : KeepsLayout u t := by
  obtain ⟨tag, c, hc, rfl⟩ | ⟨hc, rfl⟩ | ⟨hc, rfl⟩ | ⟨tag, rfl, rfl⟩ := h
  · exact slotEffect_keepsLayout hc u
  · exact immediateEffect_keepsLayout hc u
  · exact pixelEffect_keepsLayout hc u
  · exact portReset_keepsLayout l tag u

theorem packetsKeep_active (x : ActiveLayout) (epoch : Word) :
    PacketsKeep (fun s => s.engine.active = x ∧ s.engine.activeEpoch = epoch) where
  arrives l s h := by simpa using h
  counts _ _ _ h := h
  responds _ _ _ _ _ _ h _ := h
  levels _ _ h := h
  slotEffects i l tag c s hc _ _ h := by
    obtain ⟨⟨hactive, hepoch⟩, -⟩ := slotEffect_keepsLayout hc s
    exact ⟨hactive.trans h.1, hepoch.trans h.2⟩
  immediateEffects i l s hc _ h := by
    obtain ⟨⟨hactive, hepoch⟩, -⟩ := immediateEffect_keepsLayout hc s
    exact ⟨hactive.trans h.1, hepoch.trans h.2⟩
  pixelEffects i l s hc h := by
    obtain ⟨⟨hactive, hepoch⟩, -⟩ := pixelEffect_keepsLayout hc s
    exact ⟨hactive.trans h.1, hepoch.trans h.2⟩
  portResets l tag s _ h := by
    obtain ⟨⟨hactive, hepoch⟩, -⟩ := portReset_keepsLayout l tag s
    exact ⟨hactive.trans h.1, hepoch.trans h.2⟩

/-! ## What keeps the posture -/

theorem evaluateAndTell_keeps_posture (cause : Cause) (reason : PostureReason) (s : State) :
    (evaluateAndTell cause reason s).1.posture.posture = s.posture.posture := by rw [evaluateAndTell_posture]

theorem slotEffect_posture {i : Instr} {l : Link} {tag : Byte} {c : Command} (h : slotUser i = some (l, tag, c))
    (s : State) : (slotEffect i s).posture.posture = s.posture.posture := by
  have hframe := slotEffect_sameBut h s
  cases i <;> cases h
  case setHinge.refl fields =>
    simp only [slotEffect, setHingeEffect]
    split <;> rfl
  case hingeSnapshot.refl =>
    simp only [slotEffect, hingeSnapshotEffect]
    split <;> rfl
  case setFace.refl face =>
    simp only [slotEffect, setFaceEffect]
    split
    · rfl
    · exact evaluateAndTell_keeps_posture .face .face (modPosture _ s)
  case bind.refl posture face slot =>
    simp only [slotEffect, bindEffect]
    split
    · rfl
    · split
      · rfl
      · split
        · rfl
        · exact evaluateAndTell_keeps_posture .bind .bind (modPosture _ s)
  all_goals exact congrArg (·.posture) (hframe.posture (by simp [changedBy]))

theorem packetsKeep_posture (x : Posture) : PacketsKeep (fun s => s.posture.posture = x) where
  arrives l s h := by simpa using h
  counts _ _ _ h := h
  responds _ _ _ _ _ _ h _ := h
  levels _ _ h := h
  slotEffects i l tag c s hc _ _ h := (slotEffect_posture hc s).trans h
  immediateEffects i l s hc _ h :=
    (congrArg (·.posture) ((immediateEffect_sameBut hc s).posture (by cases i <;> cases hc <;> simp [changedBy]))).trans h
  pixelEffects i l s hc h :=
    (congrArg (·.posture) ((pixelEffect_sameBut hc s).posture (by cases i <;> cases hc <;> simp [changedBy]))).trans h
  portResets l tag s _ h := (congrArg (·.posture) ((portResetEffect_sameBut l s tag).posture (by simp))).trans h

/-- The events that are no rising edge and no reset keep the posture. -/
theorem eventEffect_posture {i : Instr} (hp : packetLink i = none) (hb : isBytes i = false)
    (hrise : ∀ ticks order, i ≠ .hingeRise ticks order) (s : State) :
    (eventEffect i s).posture.posture = s.posture.posture := by
  have hframe := eventEffect_sameBut hp hb s
  have hstart (order : LinkSet) : (frameStart order s).posture.posture = s.posture.posture := by
    obtain ⟨b, hb⟩ := frameStart_posture order s
    rw [hb]
  have hdue {b : Bool} : (if b then frameStart completionsFirst s else s).posture.posture = s.posture.posture := by
    split
    · exact hstart _
    · rfl
  cases i
  case hingeRise ticks order => exact absurd rfl (hrise ticks order)
  case hingeFall ticks =>
    simp only [eventEffect, modPosture, fallingEdge]
    split <;> rfl
  case sensorTimeout =>
    simp only [eventEffect, timeoutEffect]
    split
    · exact congrArg (·.posture) ((notifyBoth_sameBut _ _).posture (by simp))
    · rfl
  case frameStart order => exact hstart order
  case ackWindowExpiry | quietDetect | waitFrameDone => exact hdue
  case badPacket => cases hb
  case powerOnReset | resetInput | resetEnd | protectPulse => rfl
  case cutoffAssert | rowScan | touchReadStart | touchReadTimeout | touchReport | responseSent =>
    exact congrArg (·.posture) (hframe.posture (by simp [changedBy]))
  all_goals cases hp

/-- Settles O32: the frames of the commands, and the effects that write the engine or the monitor one by one. -/
theorem activeLayoutAndPostureChangeOnlyAtTheirEvents : Obligations.ActiveLayoutAndPostureChangeOnlyAtTheirEvents := by
  intro i s t ht hreset
  have hother (hr : takenInReset i = true) : t.engine = s.engine ∧ t.posture = s.posture := by
    cases i <;> cases hr <;> obtain rfl := Host.Outcome.next.inj ht
    case powerOnReset.refl | resetInput.refl => cases hreset
    case resetEnd.refl | protectPulse.refl => split <;> exact ⟨rfl, rfl⟩
  refine ⟨fun hf => ?_, fun hrise => ?_, fun hok hf hb r hr hm hc => ?_⟩
  · cases hr : takenInReset i with
    | true => rw [(hother hr).1]; exact ⟨rfl, rfl⟩
    | false =>
      refine (packetsKeep_active s.engine.active s.engine.activeEpoch).exec hr (fun hp hb _ h => ?_) ⟨rfl, rfl⟩ ht
      obtain ⟨hactive, hepoch, -⟩ := eventEffect_activeKept hp hb hf s
      exact ⟨hactive, hepoch⟩
  · cases hr : takenInReset i with
    | true => rw [(hother hr).2]
    | false =>
      exact (packetsKeep_posture s.posture.posture).exec hr
        (fun hp hb _ _ => eventEffect_posture hp hb hrise s) rfl ht
  · have hkept : ActiveKept s.engine t.engine := by
      cases hp : packetLink i with
      | some l =>
        obtain h | ⟨u, hu, hdoes⟩ := packet_cases hp ht
        · exact .of_eq (h.engine (by simp))
        · have hengine := hu.engine (by simp)
          exact hengine ▸ hdoes.keepsLayout.2 (hok.of_engine (hu.slots (by simp)) hengine)
      | none =>
        cases hr : takenInReset i with
        | true => exact .of_eq (hother hr).1
        | false =>
          obtain rfl := Host.Outcome.next.inj ((exec_event hp hr s).symm.trans ht)
          exact unlessHeld_keeps (P := fun t => ActiveKept s.engine t.engine) (.refl _) fun _ =>
            eventEffect_activeKept hp hb hf s
    exact hkept.2.2 r hr hm hc

end Sys2Proof.Machine
end

section
/-! PROOFS. A posture change (sections 2.4 and 7.6): follow evaluation, the notices, the WAITs for POSTURE and the aborts
armed AT_POSTURE, in either order. -/

namespace Sys2Proof.Machine

/-! ## A port that is told of a posture change -/

/-- A port whose WAIT for POSTURE ends. -/
def Port.postureWaited (res : Results) (p : Port) : Port :=
  match p.slot with
  | some (.waitPosture tag) => p.ended (.waitPosture tag) .ok res
  | _ => p

theorem Port.postureWaited_of_wait {p : Port} {tag : Byte} (h : p.slot = some (.waitPosture tag)) (res : Results) :
    p.postureWaited res = p.ended (.waitPosture tag) .ok res := by
  simp [Port.postureWaited, h]

theorem Port.postureWaited_of_other {p : Port} (h : ∀ tag, p.slot ≠ some (.waitPosture tag)) (res : Results) :
    p.postureWaited res = p := by
  unfold Port.postureWaited
  split
  · next tag htag => exact absurd htag (h tag)
  · rfl

theorem handed_postureWaited (n : Notice) (res : Results) (p : Port) :
    handed n (p.postureWaited res) = (handed n p).postureWaited res := by
  obtain ⟨-, -, -, hslot, -⟩ := handed_fields n p
  by_cases h : ∃ tag, p.slot = some (.waitPosture tag)
  · obtain ⟨tag, htag⟩ := h
    rw [Port.postureWaited_of_wait htag, Port.postureWaited_of_wait (hslot.trans htag), handed_ended]
  · have hother : ∀ tag, p.slot ≠ some (.waitPosture tag) := fun tag htag => h ⟨tag, htag⟩
    rw [Port.postureWaited_of_other hother, Port.postureWaited_of_other (by rwa [hslot])]

/-- What a WAIT for POSTURE answers (R153). -/
def postureResults (s : State) : Results :=
  .postureWaited s.posture.posture s.posture.face (s.posture.last.map (·.filtered))

theorem postureWaitDone_of_other {l : Link} {s : State} (h : ∀ tag, (s.port l).slot ≠ some (.waitPosture tag)) :
    postureWaitDone l s = s := by
  unfold postureWaitDone
  split
  · next tag htag => exact absurd htag (h tag)
  · rfl

theorem postureWaitDone_port (l : Link) (s : State) :
    (postureWaitDone l s).port l = (s.port l).postureWaited (postureResults s) := by
  by_cases h : ∃ tag, (s.port l).slot = some (.waitPosture tag)
  · obtain ⟨tag, htag⟩ := h
    rw [Port.postureWaited_of_wait htag, ← Port.finished_of_some htag]
    simp only [postureWaitDone, htag]
    exact (finish_port_eq l l .ok _ s).trans (if_pos rfl)
  · have hother : ∀ tag, (s.port l).slot ≠ some (.waitPosture tag) := fun tag htag => h ⟨tag, htag⟩
    rw [postureWaitDone_of_other hother, Port.postureWaited_of_other hother]

/-! ## One link told, by what it has armed -/

section
variable {l : Link} {first : Bool} {s : State}

/-- No abort of the link waits for a posture change. -/
abbrev NotArmedAtPosture (p : Port) : Prop := ∀ a, p.armed = some a → a.condition ≠ .atPosture

theorem notArmed_postureWaited {p : Port} (h : NotArmedAtPosture p) (res : Results) :
    NotArmedAtPosture (p.postureWaited res) := by
  unfold Port.postureWaited
  split
  · exact nofun
  · exact h

theorem tellPosture_notArmed (h : NotArmedAtPosture (s.port l)) : tellPosture l first s = postureWaitDone l s := by
  unfold tellPosture
  rw [abortArmed_other h, abortArmed_other ((postureWaitDone_port l s).symm ▸ notArmed_postureWaited h _), ite_self]

theorem abortArmed_acts {c : ArmCondition} {quiet : Bool}
    (h : (s.port l).armed = some { condition := c, quiet := quiet }) : abortArmed c l s = abortRunning l quiet s := by
  simp only [abortArmed, h, if_true]

theorem Port.finished_slot (st : Status) (res : Results) (p : Port) : (p.finished st res).slot = none := by
  cases h : p.slot with
  | none => rw [Port.finished_of_none h, h]
  | some r => rw [Port.finished_of_some h]; rfl

theorem Port.aborted_slot {p : Port} (quiet : Bool) : (p.aborted quiet).slot = none := by
  unfold Port.aborted
  split
  · rfl
  · exact Port.finished_slot _ _ _

/-- An AT_POSTURE abort ends a WAIT; against the completion of a WAIT for POSTURE the order decides (R155; log 6). -/
theorem tellPosture_wait {q : Running} {quiet : Bool}
    (harmed : (s.port l).armed = some { condition := .atPosture, quiet := quiet }) (hslot : (s.port l).slot = some q)
    (hq : ∀ tag, q ≠ .switch tag) (hfirst : first = true ∨ ∀ tag, q ≠ .waitPosture tag) :
    SameBut [.port l] s (tellPosture l first s) ∧ (tellPosture l first s).port l = (s.port l).aborted quiet := by
  obtain ⟨hframe, hport⟩ := abortRunning_wait hslot hq quiet
  rw [← abortArmed_acts harmed] at hframe hport
  unfold tellPosture
  split
  · rw [postureWaitDone_of_other (by rw [hport, Port.aborted_slot]; exact nofun)]
    exact ⟨hframe, hport⟩
  · next hlast =>
    have hother := hfirst.resolve_left hlast
    rw [postureWaitDone_of_other fun tag htag => hother tag (Option.some.inj (hslot.symm.trans htag))]
    exact ⟨hframe, hport⟩

/-- Taken first, the completion of a WAIT for POSTURE disarms the abort. -/
theorem tellPosture_completes {tag : Byte} (hslot : (s.port l).slot = some (.waitPosture tag)) :
    tellPosture l false s = postureWaitDone l s := by
  have hport := (postureWaitDone_port l s).trans (Port.postureWaited_of_wait hslot _)
  exact abortArmed_idle (by rw [hport]; rfl)

/-- The AT_POSTURE abort of a SWITCH withdraws its transition (R67). -/
theorem tellPosture_switch {tag : Byte} {p : Pending} {quiet : Bool}
    (harmed : (s.port l).armed = some { condition := .atPosture, quiet := quiet })
    (hslot : (s.port l).slot = some (.switch tag)) (hp : s.engine.pending = some p) (hreq : p.requester = some l) :
    tellPosture l first s = withdraw .aborted quiet s := by
  have hrun : abortArmed .atPosture l s = withdraw .aborted quiet s :=
    (abortArmed_acts harmed).trans (abortRunning_switch hslot quiet)
  have hgone : ((withdraw .aborted quiet s).port l).slot = none := by
    rw [withdraw_port hp, withdrawnPort, if_pos hreq]
    split
    · rfl
    · exact Port.finished_slot _ _ _
  unfold tellPosture
  split
  · rw [hrun, postureWaitDone_of_other (by rw [hgone]; exact nofun)]
  · rw [postureWaitDone_of_other (by rw [hslot]; exact nofun), hrun]

end

/-! ## Both links told -/

/-- Both links told, A and then B. -/
def tellBoth (order : LinkSet) (v : State) : State := tellPosture .b order.b (tellPosture .a order.a v)

section
variable {order : LinkSet} {v : State}

/-- What both links leave, when each changes its own port alone. -/
theorem tellBoth_ports {change : Link → Port → Port}
    (h : ∀ (l : Link) (x : State), x.port l = v.port l → x.posture = v.posture →
      SameBut [.port l] x (tellPosture l (order.get l) x) ∧ (tellPosture l (order.get l) x).port l = change l (x.port l)) :
    SameBut [.port .a, .port .b] v (tellBoth order v) ∧ ∀ l, (tellBoth order v).port l = change l (v.port l) := by
  obtain ⟨hframeA, hportA⟩ := h .a v rfl rfl
  have hb := hframeA.port .b (by simp)
  obtain ⟨hframeB, hportB⟩ := h .b _ hb (hframeA.posture (by simp))
  refine ⟨(hframeA.mono (by simp)).trans (hframeB.mono (by simp)), fun l => ?_⟩
  cases l with
  | a => exact (hframeB.port .a (by simp)).trans hportA
  | b => exact hportB.trans (congrArg (change .b) hb)

theorem postureResults_congr {s t : State} (h : t.posture = s.posture) : postureResults t = postureResults s := by
  simp only [postureResults, h]

/-- A link that has nothing armed for the posture change has its WAIT for POSTURE completed. -/
theorem tellPosture_completion {l : Link} {first : Bool} {x : State} (h : NotArmedAtPosture (x.port l)) :
    SameBut [.port l] x (tellPosture l first x)
      ∧ (tellPosture l first x).port l = (x.port l).postureWaited (postureResults x) := by
  rw [tellPosture_notArmed h]
  exact ⟨postureWaitDone_sameBut l x, postureWaitDone_port l x⟩

/-- The SWITCH of one link is withdrawn by its abort; the other link is told of it, its WAIT for POSTURE completed. -/
theorem tellBoth_switch {l : Link} {tag : Byte} {p : Pending} {quiet : Bool}
    (harmed : (v.port l).armed = some { condition := .atPosture, quiet := quiet })
    (hslot : (v.port l).slot = some (.switch tag)) (hp : v.engine.pending = some p) (hreq : p.requester = some l)
    (hother : NotArmedAtPosture (v.port l.other)) :
    SameBut [.engine, .port .a, .port .b] v (tellBoth order v) ∧ (tellBoth order v).engine = withdrawnEngine v.engine
      ∧ (tellBoth order v).port l = withdrawnPort .aborted quiet p l (v.port l)
      ∧ (tellBoth order v).port l.other =
        (handed (.withdrawn p.epoch p.slot .aborted) (v.port l.other)).postureWaited (postureResults v) := by
  have hgone {x : State} (hx : x.engine = v.engine) :
      (withdraw .aborted quiet x).engine = withdrawnEngine v.engine := by
    rw [withdraw_engine, hx, if_neg (by simp [hp])]
  have htold (m : Link) (hm : m ≠ l) (x : Port) :
      withdrawnPort .aborted quiet p m x = handed (.withdrawn p.epoch p.slot .aborted) x :=
    if_neg fun heq => hm (Option.some.inj (heq.symm.trans hreq))
  have hnot (x : Port) (h : NotArmedAtPosture x) : NotArmedAtPosture (handed (.withdrawn p.epoch p.slot .aborted) x) := by
    obtain ⟨-, -, -, -, harm, -⟩ := handed_fields (.withdrawn p.epoch p.slot .aborted) x
    rw [NotArmedAtPosture, harm]
    exact h
  have hframe := withdraw_sameBut .aborted quiet v
  cases l with
  | a =>
    have hfirst := tellPosture_switch (first := order.a) harmed hslot hp hreq
    have hb := (withdraw_port hp .aborted quiet .b).trans (htold .b nofun (v.port .b))
    obtain ⟨hframeB, hportB⟩ := tellPosture_completion (l := .b) (first := order.b) (x := withdraw .aborted quiet v)
      (hb.symm ▸ hnot _ hother)
    unfold tellBoth
    rw [hfirst]
    refine ⟨hframe.trans (hframeB.mono (by simp)), (hframeB.engine (by simp)).trans (hgone rfl),
      (hframeB.port .a (by simp)).trans (withdraw_port hp .aborted quiet .a), ?_⟩
    rw [Link.other, hportB, hb, postureResults_congr (hframe.posture (by simp))]
  | b =>
    obtain ⟨hframeA, hportA⟩ := tellPosture_completion (l := .a) (first := order.a) (x := v) hother
    have hb := hframeA.port .b (by simp)
    have hpA := (congrArg (·.pending) (hframeA.engine (by simp))).trans hp
    have hsecond := tellPosture_switch (l := .b) (first := order.b) (by rw [hb]; exact harmed) (by rw [hb]; exact hslot)
      hpA hreq
    unfold tellBoth
    rw [hsecond]
    refine ⟨(hframeA.mono (by simp)).trans (withdraw_sameBut .aborted quiet _), hgone (hframeA.engine (by simp)),
      (withdraw_port hpA .aborted quiet .b).trans (by rw [hb]), ?_⟩
    rw [Link.other, withdraw_port hpA, htold .a nofun, hportA, handed_postureWaited]

end

/-! ## The posture change (R32, R42, R44) -/

/-- The part once follow evaluation has ended and its POSTURE notice is handed to both links. -/
theorem postureChange_eq (order : LinkSet) (s : State) : postureChange order s = tellBoth order
    (notifyBoth (postureNotice .posture (followEvaluation .posture s).2 (followEvaluation .posture s).1)
      (followEvaluation .posture s).1) := rfl

section
variable {n : Notice} {u : State} {order : LinkSet}

theorem notArmed_notified {l : Link} (h : NotArmedAtPosture (u.port l)) :
    NotArmedAtPosture ((notifyBoth n u).port l) := by
  obtain ⟨-, -, -, -, harm, -⟩ := handed_fields n (u.port l)
  rw [NotArmedAtPosture, notifyBoth_port, harm]
  exact h

theorem notified_results : postureResults (notifyBoth n u) = postureResults u :=
  postureResults_congr ((notifyBoth_sameBut n u).posture (by simp))

/-- With one link's abort armed on a WAIT, and none on the other link, each port ends as its own link is told. -/
theorem tellBoth_one {l : Link} (hother : NotArmedAtPosture (u.port l.other)) {P : Port}
    (h : ∀ x : State, x.port l = handed n (u.port l) → x.posture = u.posture →
      SameBut [.port l] x (tellPosture l (order.get l) x) ∧ (tellPosture l (order.get l) x).port l = P) :
    SameBut [.port .a, .port .b] u (tellBoth order (notifyBoth n u))
      ∧ (tellBoth order (notifyBoth n u)).port l = P := by
  have hposture := (notifyBoth_sameBut n u).posture (by simp)
  obtain ⟨hframe, hports⟩ := tellBoth_ports (order := order) (v := notifyBoth n u)
    (change := fun m x => if m = l then P else x.postureWaited (postureResults u)) fun m x hx hxp => by
      by_cases hm : m = l
      · subst hm
        rw [if_pos rfl]
        exact h x (hx.trans (notifyBoth_port n u m)) (hxp.trans hposture)
      · have hml : m = l.other := by cases m <;> cases l <;> first | rfl | exact absurd rfl hm
        rw [if_neg hm, ← notified_results (n := n) (u := u), ← postureResults_congr hxp]
        exact tellPosture_completion (by rw [hx, hml]; exact notArmed_notified hother)
  exact ⟨(notifyBoth_sameBut n u).trans hframe, (hports l).trans (if_pos rfl)⟩

end

theorem handed_slot (n : Notice) (p : Port) : (handed n p).slot = p.slot := by
  obtain ⟨-, -, -, hslot, -⟩ := handed_fields n p
  exact hslot

theorem handed_armed (n : Notice) (p : Port) : (handed n p).armed = p.armed := by
  obtain ⟨-, -, -, -, harmed, -⟩ := handed_fields n p
  exact harmed

theorem handed_responses (n : Notice) (p : Port) : (handed n p).responses = p.responses := by
  obtain ⟨-, -, -, -, -, -, -, hresponses⟩ := handed_fields n p
  exact hresponses

/-- An accepted sample that completes the dwell brings a posture change, and restarts the timeout. -/
theorem hingeRise_changes {ticks : Nat} {s : State} {order : LinkSet} {m : Measurement} (hs : TakesPackets s)
    (hm : s.posture.measurement = some m)
    (hacc : acceptable (stopCount ticks) (m.high.getD (stopCount ticks)) = true)
    (hchange : changesPosture (seenSample (stopCount ticks) (m.high.getD (stopCount ticks)) (newPeriod s.posture))
      (candidateNow (seenSample (stopCount ticks) (m.high.getD (stopCount ticks)) (newPeriod s.posture))) = true) :
    exec (.hingeRise ticks order) s = .next (modPosture restartTimeout (postureChange order
      (afterDwell (stopCount ticks) (m.high.getD (stopCount ticks)) (modPosture newPeriod s)))) :=
  (congrArg Host.Outcome.next (unlessHeld_running hs _)).trans (congrArg _ ((risingEdge_accepted hm hacc).trans
    (acceptSample_of_changes _ _ _ order hchange)))

theorem restartTimeout_after {t : State} {x : HingeSettings} (h : t.posture.settings = x) :
    modPosture restartTimeout t = { t with posture := { t.posture with running := some x.timeout } } := by
  simp only [modPosture_eq, restartTimeout, h]

/-- Settles O14: a sample that completes the dwell, and the two links told in turn, each by what it has armed. -/
theorem postureChangeTellsBothLinks : Obligations.PostureChangeTellsBothLinks := by
  refine ⟨?_, fun s order => ?_⟩
  · intro ticks s order m hs hm p w hlow hhigh hw hwp seen cand hcand hdwell
    have hchange : changesPosture (seenSample p w (newPeriod s.posture)) cand = true :=
      decide_eq_true ⟨hcand, hdwell.trans_eq (if_neg hcand).symm⟩
    have hposture := (afterDwell_posture p w (modPosture newPeriod s)).trans (dwellStep_of_changes hchange)
    refine ⟨afterDwell p w (modPosture newPeriod s),
      ((modPosture_sameBut newPeriod s).mono (by simp)).trans (afterDwell_sameBut p w _), hposture,
      fun l => afterDwell_port p w _ l, ?_⟩
    intro t
    rw [hingeRise_changes hs hm (decide_eq_true ⟨hlow, hhigh, hw, hwp⟩) hchange]
    have hsettings : t.posture.settings = s.posture.settings :=
      (congrArg (·.settings) (postureChange_posture order _)).trans (congrArg (·.settings) hposture)
    exact congrArg Host.Outcome.next (restartTimeout_after hsettings)
  · intro r u t told waited notArmed
    have ht : t = tellBoth order (notifyBoth (postureNotice .posture r.2 u) u) := postureChange_eq order s
    have htold (l : Link) : told l = handed (postureNotice .posture r.2 u) (u.port l) := rfl
    have hport (l : Link) := notifyBoth_port (postureNotice .posture r.2 u) u l
    have hslot (l : Link) : (told l).slot = (u.port l).slot := handed_slot _ _
    have hresponses (l : Link) : (told l).responses = (u.port l).responses := handed_responses _ _
    have hended (l : Link) (tag : Byte) : (told l).ended (.waitPosture tag) .ok (postureResults u) =
        { told l with slot := none, armed := none, responses := (u.port l).responses ++ [waited tag] } := by
      rw [← hresponses]
      rfl
    have hnotified (l : Link) (h : notArmed l) := notArmed_notified (n := postureNotice .posture r.2 u) (u := u) h
    rw [ht]
    refine ⟨fun ha hb l => ?_, fun l quiet harmed hother => ⟨fun tag htag horder => ?_, fun q hq hwait hfirst => ?_, ?_⟩⟩
    · obtain ⟨hframe, hports⟩ := tellBoth_ports (order := order) (v := notifyBoth (postureNotice .posture r.2 u) u)
        (change := fun _ x => x.postureWaited (postureResults u)) fun m x hx hxp => by
          rw [← notified_results (n := postureNotice .posture r.2 u) (u := u), ← postureResults_congr hxp]
          refine tellPosture_completion (hx ▸ ?_)
          cases m
          · exact hnotified .a ha
          · exact hnotified .b hb
      have hl := (hports l).trans (congrArg _ (hport l))
      refine ⟨(notifyBoth_sameBut _ u).trans hframe, fun hwait => ?_, fun tag htag => ?_⟩
      · exact hl.trans (Port.postureWaited_of_other (by rw [handed_slot]; exact hwait) _)
      · exact hl.trans ((Port.postureWaited_of_wait ((hslot l).trans htag) _).trans (hended l tag))
    · rw [← hended]
      refine tellBoth_one hother fun x hx hxp => ?_
      have hxslot : (x.port l).slot = some (.waitPosture tag) := by rw [hx, handed_slot, htag]
      rw [horder, tellPosture_completes hxslot]
      refine ⟨postureWaitDone_sameBut l x, (postureWaitDone_port l x).trans ?_⟩
      rw [Port.postureWaited_of_wait hxslot, hx, postureResults_congr hxp, htold]
    · have habort := Port.aborted_eq (p := told l) ((hslot l).trans hq) hwait quiet
      rw [hresponses] at habort
      rw [← habort]
      refine tellBoth_one hother fun x hx hxp => ?_
      have hxslot : (x.port l).slot = some q := by rw [hx, handed_slot, hq]
      have hxarmed : (x.port l).armed = some { condition := .atPosture, quiet := quiet } := by
        rw [hx, handed_armed, harmed]
      obtain ⟨hframe, hends⟩ := tellPosture_wait (first := order.get l) hxarmed hxslot hwait hfirst
      exact ⟨hframe, hends.trans (by rw [hx, htold])⟩
    · intro tag p htag hp hreq gone
      obtain ⟨hframe, hengine, hself, hothers⟩ := tellBoth_switch (order := order)
        (v := notifyBoth (postureNotice .posture r.2 u) u) (l := l) (tag := tag) (p := p) (quiet := quiet)
        (by rw [hport, handed_armed, harmed]) (by rw [hport, handed_slot, htag])
        ((congrArg (·.pending) ((notifyBoth_sameBut _ u).engine (by simp))).trans hp) hreq (hnotified l.other hother)
      rw [hport, ← htold] at hself hothers
      rw [notified_results] at hothers
      have hgone (m : Link) : (handed gone (told m)).slot = (u.port m).slot := (handed_slot _ _).trans (hslot m)
      have hgoneResponses (m : Link) : (handed gone (told m)).responses = (u.port m).responses :=
        (handed_responses _ _).trans (hresponses m)
      refine ⟨((notifyBoth_sameBut _ u).mono (by simp)).trans hframe, hengine.trans ?_, hself.trans ?_, fun hwait => ?_,
        fun x hx => ?_⟩
      · rw [(notifyBoth_sameBut _ u).engine (by simp)]
        rfl
      · rw [withdrawnPort, if_pos hreq]
        cases quiet with
        | true =>
          rw [if_pos rfl, if_pos rfl, List.append_nil, ← hgoneResponses]
          rfl
        | false =>
          rw [if_neg nofun, if_neg nofun, Port.finished_of_some ((hgone l).trans htag), ← hgoneResponses]
          rfl
      · exact hothers.trans (Port.postureWaited_of_other (by rw [hgone]; exact hwait) _)
      · refine hothers.trans ((Port.postureWaited_of_wait ((hgone l.other).trans hx) _).trans ?_)
        rw [← hgoneResponses]
        rfl

end Sys2Proof.Machine
end

section
/-! PROOFS. The store at a frame start (section 4.4): the record the frame start leaves, and that it may be taken
before or behind the switch. -/

namespace Sys2Proof.Machine

/-! ## One record at a frame start (R95) -/

theorem frameRecord_pending {r : RuntimeRecord} (h : r.membership = .pending) : frameRecord r = r := if_pos h

theorem modBuffers_id {r : RuntimeRecord} {f : Buffers → Buffers} (h : ∀ b, r.buffers = some b → f b = b) :
    modBuffers f r = r := by
  unfold modBuffers
  cases hb : r.buffers with
  | none => rw [Option.map_none, ← hb]
  | some b => rw [Option.map_some, h b hb, ← hb]

theorem clearIfDue_none {b : Buffers} (h : b.clearDue = none) : clearIfDue b = b := by simp [clearIfDue, h]

/-- A record with no due clear whose back is not COMPLETE, or that is not DOUBLE, is left alone. -/
theorem frameRecord_idle {r : RuntimeRecord} (hdue : ∀ b, r.buffers = some b → b.clearDue = none)
    (hidle : ¬ (isDouble r ∧ backStateOf r = .complete)) : frameRecord r = r := by
  have hsame : modBuffers clearIfDue r = r := modBuffers_id fun b hb => clearIfDue_none (hdue b hb)
  by_cases hm : r.membership = .pending
  · exact frameRecord_pending hm
  · simp only [frameRecord, if_neg hm, hsame, if_neg hidle]

/-- A due front clear reaches the front alone when the back has the other label. -/
theorem clearIfDue_front {b : Buffers} {k : Buffer} (hback : b.back = some k) (hne : k.label ≠ b.front.label)
    (hdue : b.clearDue = none ∨ b.clearDue = some b.front.label) :
    clearIfDue b = { b with
      front := if b.clearDue = none then b.front else clearRows b.front, clearDue := none } := by
  obtain hnone | hsome := hdue
  · rw [clearIfDue_none hnone, if_pos hnone, ← hnone]
  · simp [clearIfDue, hsome, clearLabel, hback, hne]

section
variable {r : RuntimeRecord} (hm : r.membership ≠ .pending) (hc : r.region.content = .double) {b : Buffers}
  (hb : r.buffers = some b)
include hm hc hb

theorem frameRecord_flips (h : b.backState = .complete) : frameRecord r =
    { r with gate := .opened, buffers := some (flipBuffers (clearIfDue b)) } := by
  have hstate : (clearIfDue b).backState = .complete := by
    unfold clearIfDue
    split
    · exact h
    · exact h
  have hflip : isDouble (modBuffers clearIfDue r) ∧ backStateOf (modBuffers clearIfDue r) = .complete :=
    ⟨isDouble_iff.mpr hc, by simp [backStateOf, modBuffers, hb, hstate]⟩
  simp only [frameRecord, if_neg hm, if_pos hflip]
  simp [flipRecord, openGate, modBuffers, hm, hb]

omit hc in
theorem frameRecord_clears (h : b.backState ≠ .complete) : frameRecord r =
    { r with buffers := some (clearIfDue b) } := by
  have hstate : (clearIfDue b).backState ≠ .complete := by
    unfold clearIfDue
    split
    · exact h
    · exact h
  have hkeep : ¬ (isDouble (modBuffers clearIfDue r) ∧ backStateOf (modBuffers clearIfDue r) = .complete) := by
    simp [backStateOf, modBuffers, hb, hstate]
  simp only [frameRecord, if_neg hm, if_neg hkeep]
  simp [modBuffers, hb]

end

/-- Settles O37: a record by its content, a DOUBLE one by its due clear and the state of its back. -/
theorem frameStartFlipsCompleteBacks : Obligations.FrameStartFlipsCompleteBacks := by
  refine ⟨fun s => ⟨rfl, storeFrame_sameBut s⟩, fun r => ⟨frameRecord_pending, fun hc hdue => ?_, ?_⟩⟩
  · exact frameRecord_idle hdue fun h => hc (isDouble_iff.mp h.1)
  · intro b k hm hc hb hk hne hdue front
    have hcleared := clearIfDue_front hk hne hdue
    refine ⟨fun hstate => ?_, fun hstate => ?_⟩
    · rw [frameRecord_flips hm hc hb hstate, hcleared]
      simp [flipBuffers, hk, front, clearRows]
    · rw [frameRecord_clears hm hb hstate, hcleared]
      rfl

/-! ## The frame start of the store and the switch (R97) -/

theorem openGate_region (r : RuntimeRecord) : (openGate r).region = r.region := by unfold openGate; split <;> rfl

theorem openGate_membership (r : RuntimeRecord) : (openGate r).membership = r.membership := by
  unfold openGate; split <;> rfl

theorem frameRecord_region (r : RuntimeRecord) : (frameRecord r).region = r.region := by
  unfold frameRecord
  split
  · rfl
  · dsimp only
    split
    · exact openGate_region _
    · rfl

theorem frameRecord_membership (r : RuntimeRecord) : (frameRecord r).membership = r.membership := by
  unfold frameRecord
  split
  · rfl
  · dsimp only
    split
    · exact openGate_membership _
    · rfl

theorem carriedTags_storeFrame (s : State) : carriedTags (storeFrame s).engine = carriedTags s.engine := by
  simp [carriedTags, storeFrame, List.filter_map, Function.comp_def, frameRecord_region, frameRecord_membership]

/-- What the frame start does to a record it reads of its content, its buffers, and whether it is of the active layout. -/
theorem frameRecord_withRegion {r : RuntimeRecord} (hm : r.membership = .both) {new : Region}
    (hc : new.content = r.region.content) :
    frameRecord { r with region := new, membership := .active } =
      { frameRecord r with region := new, membership := .active } := by
  simp only [frameRecord, hm, reduceCtorEq, if_false, isDouble, backStateOf, modBuffers, hc, flipRecord, openGate]
  split <;> rfl

theorem frameRecord_switchRecord {s : State} {r : RuntimeRecord} (h : RecordOk s r) {new : Region}
    (hcase : (r.membership = .both ∧ carries r.region new = true) ∨ (r.membership = .pending ∧ r.region = new)) :
    frameRecord (switchRecord new r) = switchRecord new (frameRecord r) := by
  obtain ⟨hm, hcarries⟩ | ⟨hm, -⟩ := hcase
  · obtain ⟨-, -, hcontent, -⟩ := (carries_iff _ _).mp hcarries
    rw [switchRecord_both hm, switchRecord_both ((frameRecord_membership r).trans hm),
      frameRecord_withRegion hm hcontent.symm]
  · obtain ⟨-, hbuffers, -⟩ := h
    rw [frameRecord_pending hm, switchRecord_pending hm]
    obtain ⟨hc, hnone⟩ | ⟨hc, b, hb, hok⟩ | ⟨hc, b, hb, hok⟩ := (buffersOk_iff _ _ _).mp hbuffers
    · exact frameRecord_idle (by simp [hnone]) (by simp [isDouble, hc])
    · obtain ⟨-, -, -, -, -, hdue⟩ := hok
      exact frameRecord_idle (by simp [hb, hdue]) (by simp [isDouble, hc])
    · obtain ⟨-, -, -, hpending, -⟩ := hok
      obtain ⟨hstate, hdue⟩ := hpending hm
      exact frameRecord_idle (by simp [hb, hdue]) (by simp [backStateOf, hb, hstate])

theorem recordFor_storeFrame (s : State) (new : Region) :
    recordFor (storeFrame s).engine new = (recordFor s.engine new).map frameRecord := by
  have hpending : pendingRecords (storeFrame s).engine = (pendingRecords s.engine).map frameRecord :=
    pendingRecords_map rfl fun r _ => frameRecord_membership r
  simp only [recordFor, recordWithTag, hpending, List.find?_map, Function.comp_def, frameRecord_region]

theorem switchedRecords_storeFrame {s : State} (h : RecordsOk s) {p : Pending} (hp : s.engine.pending = some p) :
    switchedRecords p.regions (storeFrame s).engine.records =
      (switchedRecords p.regions s.engine.records).map frameRecord := by
  rw [switchedRecords_eq, switchedRecords_eq, List.map_filterMap]
  refine List.filterMap_congr fun new hnew => ?_
  obtain ⟨r, hr, hfound, hcase⟩ := exists_recordFor h hp hnew
  rw [recordFor_storeFrame, hfound]
  exact congrArg some (frameRecord_switchRecord (h.1 r hr) hcase).symm

theorem contacts_ext {v w : Vector Contact 10} (h : ∀ c : TouchId, w.get c = v.get c) : w = v :=
  Vector.ext fun i hi => h ⟨i, hi⟩

theorem toldOfSwitch_storeFrame (late : LinkSet) (p : Pending) (s : State) (l : Link) :
    toldOfSwitch late p (storeFrame s) l = toldOfSwitch late p s l := by
  unfold toldOfSwitch
  rw [carriedTags_storeFrame]
  rfl

/-- Settles O38: part by part; the store changes records alone, and the switch reads of them what a frame start keeps. -/
theorem flipAndSwitchCommute : Obligations.FlipAndSwitchCommute := by
  intro late s p h hp
  have hp' : (storeFrame s).engine.pending = some p := hp
  have hleft : SameBut [.posture, .engine, .touch, .port .a, .port .b] s (storeFrame (makeSwitch late s)) :=
    (makeSwitch_sameBut late s).trans ((storeFrame_sameBut _).mono (by simp))
  have hright : SameBut [.posture, .engine, .touch, .port .a, .port .b] s (makeSwitch late (storeFrame s)) :=
    ((storeFrame_sameBut s).mono (by simp)).trans (makeSwitch_sameBut late _)
  have hports (l : Link) : (makeSwitch late s).port l = (makeSwitch late (storeFrame s)).port l := by
    rw [makeSwitch_port hp, makeSwitch_port hp', toldOfSwitch_storeFrame]
    rfl
  refine state_ext fun part _ => ?_
  cases part with
  | slots => exact (hleft.slots (by simp)).trans (hright.slots (by simp)).symm
  | posture => exact (makeSwitch_posture hp late).trans (makeSwitch_posture hp' late).symm
  | engine =>
    have hengine := congrArg (fun e : Engine => { e with records := e.records.map frameRecord }) (makeSwitch_engine hp late)
    refine hengine.trans ((makeSwitch_engine hp' late).trans ?_).symm
    unfold switchedEngine
    rw [switchedRecords_storeFrame h hp]
    rfl
  | store => exact (hleft.store (by simp)).trans (hright.store (by simp)).symm
  | scan => exact (hleft.scan (by simp)).trans (hright.scan (by simp)).symm
  | touch =>
    obtain ⟨htouch, hcontacts⟩ := makeSwitch_touch hp late
    obtain ⟨htouch', hcontacts'⟩ := makeSwitch_touch hp' late
    have hsame : (makeSwitch late s).touch.contacts = (makeSwitch late (storeFrame s)).touch.contacts :=
      contacts_ext fun c => by rw [hcontacts, hcontacts', carriedTags_storeFrame]; rfl
    exact htouch.trans ((congrArg (fun v => { s.touch with contacts := v }) hsame).trans htouch'.symm)
  | port l => exact hports l
  | cutoffInput => exact (hleft.cutoffInput (by simp)).trans (hright.cutoffInput (by simp)).symm
  | phase => exact (hleft.phase (by simp)).trans (hright.phase (by simp)).symm
  | outputs => exact (hleft.outputs (by simp)).trans (hright.outputs (by simp)).symm
  | queue => exact (hleft.queue (by simp)).trans (hright.queue (by simp)).symm

end Sys2Proof.Machine
end

section
/-! PROOFS. The frame start (section 5.1): a port's own part of it, the switch made at one, and what it leaves alone. -/

namespace Sys2Proof.Machine

/-! ## A port's part of a frame start (R148, R153, R155) -/

/-- A port whose WAIT for FRAME counts a frame start. -/
def Port.frameWaited (now : Word) (p : Port) : Port :=
  match p.slot with
  | some (.waitFrame tag n) =>
    if n ≤ 1 then p.ended (.waitFrame tag n) .ok (.frame now) else { p with slot := some (.waitFrame tag (n - 1)) }
  | _ => p

/-- No abort of the link waits for a frame start. -/
abbrev NotArmedAtFrame (p : Port) : Prop := ∀ a, p.armed = some a → a.condition ≠ .atFrame

section
variable {p : Port} {tag : Byte} {n : Nat} (now : Word)

theorem Port.frameWaited_of_other (h : ∀ tag n, p.slot ≠ some (.waitFrame tag n)) : p.frameWaited now = p := by
  unfold Port.frameWaited
  split
  · next tag n hslot => exact absurd hslot (h tag n)
  · rfl

theorem Port.frameWaited_counts (h : p.slot = some (.waitFrame tag n)) (hn : 1 < n) :
    p.frameWaited now = { p with slot := some (.waitFrame tag (n - 1)) } := by
  simp [Port.frameWaited, h, Nat.not_le.mpr hn]

theorem Port.frameWaited_ends (h : p.slot = some (.waitFrame tag n)) (hn : n ≤ 1) :
    p.frameWaited now = p.ended (.waitFrame tag n) .ok (.frame now) := by
  simp [Port.frameWaited, h, hn]

theorem notArmed_frameWaited (h : NotArmedAtFrame p) : NotArmedAtFrame (p.frameWaited now) := by
  unfold Port.frameWaited
  split
  · split
    · exact nofun
    · exact h
  · exact h

end

theorem frameWait_port (l : Link) (s : State) : (frameWait l s).port l = (s.port l).frameWaited s.scan.frame := by
  unfold frameWait
  split
  · next tag n hslot =>
    split
    · next hn => rw [finish_port_eq, if_pos rfl, Port.finished_of_some hslot, Port.frameWaited_ends _ hslot hn]
    · next hn => rw [port_modPort, Port.frameWaited_counts _ hslot (Nat.not_le.mp hn)]
  · next hother => rw [Port.frameWaited_of_other _ fun tag n hslot => hother tag n hslot]

theorem countQuiet_slot (p : Port) : (countQuiet p).slot = p.slot := by unfold countQuiet; split <;> rfl

theorem countQuiet_armed (p : Port) : (countQuiet p).armed = p.armed := by unfold countQuiet; split <;> rfl

theorem countQuiet_offline (p : Port) : (countQuiet p).state = .offline ↔ p.state = .offline := by
  unfold countQuiet
  split
  · next hon =>
    dsimp only
    split <;> simp [hon]
  · rfl

/-- Quiet counting and the notices of a frame start do not meet. -/
theorem countQuiet_handedAll (ns : List Notice) (p : Port) :
    countQuiet (handedAll ns p) = handedAll ns (countQuiet p) := by
  have hself := handedAll_congr ns (p := p) (q := p) Iff.rfl rfl rfl
  rw [handedAll_congr ns (countQuiet_offline p) (by unfold countQuiet; split <;> rfl)
    (by unfold countQuiet; split <;> rfl), hself]
  unfold countQuiet
  dsimp only
  split <;> rfl

theorem countQuiet_ended (r : Running) (st : Status) (res : Results) (p : Port) :
    countQuiet (p.ended r st res) = (countQuiet p).ended r st res := by
  unfold countQuiet Port.ended
  dsimp only
  split <;> rfl

/-- With nothing armed for the frame start, or nothing running, a port counts its quiet frames and its WAIT for FRAME. -/
theorem portFrame_port {l : Link} {s : State} (h : NotArmedAtFrame (s.port l)
      ∨ ((countQuiet (s.port l)).frameWaited s.scan.frame).slot = none) :
    SameBut [.port l] s (portFrame l s)
      ∧ (portFrame l s).port l = (countQuiet (s.port l)).frameWaited s.scan.frame := by
  have hport : (frameWait l (s.modPort l countQuiet)).port l = (countQuiet (s.port l)).frameWaited s.scan.frame := by
    rw [frameWait_port, port_modPort]
    rfl
  have hrun : portFrame l s = frameWait l (s.modPort l countQuiet) := by
    obtain harmed | hidle := h
    · refine abortArmed_other ?_
      rw [hport]
      exact notArmed_frameWaited _ fun a ha => harmed a ((countQuiet_armed _).symm.trans ha)
    · exact abortArmed_idle (hport.symm ▸ hidle)
  rw [hrun]
  exact ⟨(modPort_sameBut l _ s).trans (frameWait_sameBut l _), hport⟩

/-- With nothing pending an abort acts on its own port alone. -/
theorem abortArmed_steady {s : State} (h : s.engine.pending = none) (c : ArmCondition) (l : Link) :
    SameBut [.port l] s (abortArmed c l s) := by
  unfold abortArmed
  split
  · exact SameBut.refl _ s
  · split
    · unfold abortRunning
      split
      · exact SameBut.refl _ s
      · simpa [withdraw, h] using SameBut.refl _ s
      · split
        · exact emptySlot_sameBut l s
        · exact finish_sameBut l _ _ s
    · exact SameBut.refl _ s

theorem portFrame_steady {s : State} (h : s.engine.pending = none) (l : Link) : SameBut [.port l] s (portFrame l s) := by
  have hbefore := (modPort_sameBut l countQuiet s).trans (frameWait_sameBut l (s.modPort l countQuiet))
  exact hbefore.trans (abortArmed_steady ((congrArg Engine.pending (hbefore.engine (by simp))).trans h) _ _)

/-- Both ports' part of a frame start. -/
def portFrames (s : State) : State := portFrame .b (portFrame .a s)

/-- When each port's part changes that port alone, each is told of the state as it stood. -/
theorem portFrames_of_apart {s : State} {change : Link → Port → Port}
    (h : ∀ l x, x.port l = s.port l → x.scan = s.scan → x.engine = s.engine →
      SameBut [.port l] x (portFrame l x) ∧ (portFrame l x).port l = change l (s.port l)) :
    SameBut [.port .a, .port .b] s (portFrames s) ∧ ∀ l, (portFrames s).port l = change l (s.port l) := by
  obtain ⟨hframe, hport⟩ := h .a s rfl rfl rfl
  obtain ⟨hframe', hport'⟩ := h .b (portFrame .a s) (hframe.port .b (by simp)) (hframe.scan (by simp))
    (hframe.engine (by simp))
  refine ⟨(hframe.mono (by simp)).trans (hframe'.mono (by simp)), fun l => ?_⟩
  cases l with
  | a => exact (hframe'.port .a (by simp)).trans hport
  | b => exact hport'

/-- With nothing pending, a port is told of the state as it stood. -/
theorem portFrames_steady {s : State} (h : s.engine.pending = none) : SameBut [.port .a, .port .b] s (portFrames s) ∧
    ∀ l, ((s.port l).slot = none ∨ NotArmedAtFrame (s.port l)
        ∨ ((countQuiet (s.port l)).frameWaited s.scan.frame).slot = none) →
      (portFrames s).port l = (countQuiet (s.port l)).frameWaited s.scan.frame := by
  have hframe := portFrame_steady h .a
  have hframe' := portFrame_steady ((congrArg Engine.pending (hframe.engine (by simp))).trans h) .b
  have hcase {l : Link} (hl : (s.port l).slot = none ∨ NotArmedAtFrame (s.port l)
        ∨ ((countQuiet (s.port l)).frameWaited s.scan.frame).slot = none) :
      NotArmedAtFrame (s.port l) ∨ ((countQuiet (s.port l)).frameWaited s.scan.frame).slot = none :=
    hl.elim (fun hidle => .inr (by
      rw [Port.frameWaited_of_other _ (by rw [countQuiet_slot, hidle]; exact nofun), countQuiet_slot, hidle])) id
  refine ⟨(hframe.mono (by simp)).trans (hframe'.mono (by simp)), fun l hl => ?_⟩
  cases l with
  | a => exact (hframe'.port .a (by simp)).trans (portFrame_port (hcase hl)).2
  | b =>
    have hport := hframe.port .b (by simp)
    have hscan := hframe.scan (by simp)
    have := (portFrame_port (l := .b) (s := portFrame .a s) (by rw [hport, hscan]; exact hcase hl)).2
    rwa [hport, hscan] at this

/-! ## The frame start in BLANKING -/

/-- The aborts taken first at a frame start. -/
def afterAborts (order : LinkSet) (s : State) : State := abortIfFirst .b order.b (abortIfFirst .a order.a s)

theorem frameStart_eq (order : LinkSet) (s : State) : frameStart order s =
    portFrames (engineFrame (storeFrame (afterAborts order (scanFrame (finishFrame s))))) := rfl

/-- An abort that is not armed for the frame start, or has no running command, is not taken first. -/
theorem afterAborts_none {order : LinkSet} {s : State}
    (h : ∀ l, order.get l = true → (s.port l).slot = none ∨ NotArmedAtFrame (s.port l)) : afterAborts order s = s := by
  have hskip (l : Link) (first : Bool) (hfirst : first = order.get l) : abortIfFirst l first s = s := by
    unfold abortIfFirst
    split
    · next hf =>
      obtain hidle | harmed := h l (hfirst.symm.trans hf)
      · exact abortArmed_idle hidle
      · exact abortArmed_other harmed
    · rfl
  rw [afterAborts, hskip .a order.a rfl, hskip .b order.b rfl]

/-- The CUTOFF (off) notice of a frame start, when the latch clears (R122). -/
def offNotices (s : State) : List Notice :=
  if s.scan.latch = .clearDue then [.cutoff false (s.scan.frame + 1)] else []

theorem scanFrame_port_eq (s : State) (l : Link) : (scanFrame s).port l = handedAll (offNotices s) (s.port l) := by
  rw [scanFrame_port, offNotices]
  split <;> rfl

theorem scanFrame_slot (s : State) (l : Link) : ((scanFrame s).port l).slot = (s.port l).slot := by
  obtain ⟨-, -, -, hslot, -⟩ := handedAll_fields (offNotices s) (s.port l)
  rw [scanFrame_port_eq, hslot]

theorem scanFrame_armed (s : State) (l : Link) : ((scanFrame s).port l).armed = (s.port l).armed := by
  obtain ⟨-, -, -, -, harmed, -⟩ := handedAll_fields (offNotices s) (s.port l)
  rw [scanFrame_port_eq, harmed]

/-- The state in which the transition engine has its part of a frame start, when no abort was taken first. -/
def atEngineFrame (s : State) : State := storeFrame (scanFrame s)

section
variable (s : State)

theorem atEngineFrame_sameBut : SameBut [.engine, .scan, .outputs, .port .a, .port .b] s (atEngineFrame s) :=
  ((scanFrame_sameBut s).mono (by simp)).trans ((storeFrame_sameBut _).mono (by simp))

theorem atEngineFrame_engine :
    (atEngineFrame s).engine = { s.engine with records := s.engine.records.map frameRecord } :=
  congrArg (fun e : Engine => { e with records := e.records.map frameRecord }) ((scanFrame_sameBut s).engine (by simp))

theorem atEngineFrame_frame : (atEngineFrame s).scan.frame = s.scan.frame + 1 :=
  congrArg Scan.frame (scanFrame_scan s)

theorem atEngineFrame_port (l : Link) : (atEngineFrame s).port l = handedAll (offNotices s) (s.port l) :=
  scanFrame_port_eq s l

theorem atEngineFrame_slot (l : Link) : ((atEngineFrame s).port l).slot = (s.port l).slot := scanFrame_slot s l

theorem atEngineFrame_armed (l : Link) : ((atEngineFrame s).port l).armed = (s.port l).armed := scanFrame_armed s l

theorem carriedTags_atEngineFrame : carriedTags (atEngineFrame s).engine = carriedTags s.engine := by
  rw [atEngineFrame, carriedTags_storeFrame, (scanFrame_sameBut s).engine (by simp)]

theorem toldOfSwitch_atEngineFrame (late : LinkSet) (p : Pending) (l : Link) :
    toldOfSwitch late p (atEngineFrame s) l =
      handedAll (offNotices s ++ .active p.epoch p.slot p.generation (s.scan.frame + 1) late
        :: cancelsFor l .switch p.epoch (carriedTags s.engine) s.touch.contacts) (s.port l) := by
  rw [toldOfSwitch, atEngineFrame_frame, carriedTags_atEngineFrame, (atEngineFrame_sameBut s).touch (by simp),
    atEngineFrame_port, handedAll_append]

end

/-- In BLANKING, with no abort taken first. -/
theorem frameStart_of_blanking {order : LinkSet} {s : State} (hrow : s.scan.row = none)
    (h : ∀ l, order.get l = true → (s.port l).slot = none ∨ NotArmedAtFrame (s.port l)) :
    frameStart order s = portFrames (engineFrame (atEngineFrame s)) := by
  rw [frameStart_eq, finishFrame_blanking hrow, afterAborts_none fun l hl => ?_]
  · rfl
  · rw [scanFrame_slot, NotArmedAtFrame, scanFrame_armed]
    exact h l hl

/-! ## What every frame start does (R106) -/

theorem portFrames_sameBut (s : State) : SameBut [.engine, .port .a, .port .b] s (portFrames s) :=
  (portFrame_sameBut .a s).trans (portFrame_sameBut .b _)

theorem afterAborts_sameBut (order : LinkSet) (s : State) : SameBut [.engine, .port .a, .port .b] s (afterAborts order s) :=
  (abortIfFirst_sameBut .a order.a s).trans (abortIfFirst_sameBut .b order.b _)

/-- An engine keeps its epoch counter and ACK_FRAMES. -/
abbrev SameCounter (e f : Engine) : Prop := f.epochCounter = e.epochCounter ∧ f.ackFrames = e.ackFrames

theorem SameCounter.of_withdrawn {e f : Engine} (h : f = e ∨ f = withdrawnEngine e) : SameCounter e f := by
  obtain rfl | rfl := h <;> exact ⟨rfl, rfl⟩

theorem abortArmed_sameCounter (c : ArmCondition) (l : Link) (s : State) :
    SameCounter s.engine (abortArmed c l s).engine := .of_withdrawn (abortArmed_engine c l s)

theorem abortIfFirst_sameCounter (l : Link) (first : Bool) (s : State) :
    SameCounter s.engine (abortIfFirst l first s).engine := by
  unfold abortIfFirst
  split
  · exact abortArmed_sameCounter _ _ _
  · exact ⟨rfl, rfl⟩

theorem portFrame_sameCounter (l : Link) (s : State) : SameCounter s.engine (portFrame l s).engine := by
  have hbefore := ((modPort_sameBut l countQuiet s).trans (frameWait_sameBut l (s.modPort l countQuiet))).engine (by simp)
  have := abortArmed_sameCounter .atFrame l (frameWait l (s.modPort l countQuiet))
  rwa [hbefore] at this

theorem engineFrame_cases (s : State) : engineFrame s = s
    ∨ (∃ p late, s.engine.pending = some p ∧ engineFrame s = makeSwitch late s)
    ∨ ∃ p, s.engine.pending = some p ∧ engineFrame s =
        { s with engine := { s.engine with pending := some { p with window := p.window - 1 } } } := by
  cases hp : s.engine.pending with
  | none => exact .inl (engineFrame_of_steady hp)
  | some p =>
    cases ha : p.armed with
    | true => exact .inr (.inl ⟨p, _, rfl, engineFrame_of_armed hp ha⟩)
    | false =>
      by_cases hw : p.window ≤ 1
      · exact .inr (.inl ⟨p, _, rfl, engineFrame_of_expired hp ha hw⟩)
      · exact .inr (.inr ⟨p, rfl, engineFrame_of_waiting hp ha (Nat.not_le.mp hw)⟩)

theorem engineFrame_sameCounter (s : State) : SameCounter s.engine (engineFrame s).engine := by
  obtain h | ⟨p, late, hp, h⟩ | ⟨p, -, h⟩ := engineFrame_cases s
  · rw [h]
    exact ⟨rfl, rfl⟩
  · rw [h, makeSwitch_engine hp]
    exact ⟨rfl, rfl⟩
  · rw [h]
    exact ⟨rfl, rfl⟩

theorem SameCounter.trans {e f g : Engine} (h : SameCounter e f) (h' : SameCounter f g) : SameCounter e g :=
  ⟨h'.1.trans h.1, h'.2.trans h.2⟩

theorem frameStart_sameCounter {order : LinkSet} {s : State} (hrow : s.scan.row = none) :
    SameCounter s.engine (frameStart order s).engine := by
  rw [frameStart_eq, finishFrame_blanking hrow]
  have hscan := (scanFrame_sameBut s).engine (by simp)
  have haborts := (abortIfFirst_sameCounter .a order.a (scanFrame s)).trans (abortIfFirst_sameCounter .b order.b _)
  rw [hscan] at haborts
  have hstore : SameCounter s.engine (storeFrame (afterAborts order (scanFrame s))).engine := haborts
  exact hstore.trans ((engineFrame_sameCounter _).trans ((portFrame_sameCounter .a _).trans (portFrame_sameCounter .b _)))

/-- The touch router keeps all but its contacts at a frame start. -/
theorem engineFrame_touch (s : State) :
    (engineFrame s).touch = { s.touch with contacts := (engineFrame s).touch.contacts } := by
  obtain h | ⟨p, late, hp, h⟩ | ⟨p, -, h⟩ := engineFrame_cases s
  · rw [h]
  · rw [h]
    exact (makeSwitch_touch hp late).1
  · rw [h]

section
variable {s : State} (hrow : s.scan.row = none) (order : LinkSet)
include hrow

theorem frameStart_beforeEngine : SameBut [.engine, .scan, .port .a, .port .b, .outputs] s
    (storeFrame (afterAborts order (scanFrame (finishFrame s)))) := by
  rw [finishFrame_blanking hrow]
  exact ((scanFrame_sameBut s).mono (by simp)).trans
    (((afterAborts_sameBut order _).mono (by simp)).trans ((storeFrame_sameBut _).mono (by simp)))

/-- Behind the scan engine's own part no block touches it at a frame start. -/
theorem frameStart_afterScan :
    SameBut [.posture, .engine, .touch, .port .a, .port .b] (scanFrame s) (frameStart order s) := by
  rw [frameStart_eq, finishFrame_blanking hrow]
  exact ((afterAborts_sameBut order _).mono (by simp)).trans (((storeFrame_sameBut _).mono (by simp)).trans
    ((engineFrame_sameBut _).trans ((portFrames_sameBut _).mono (by simp))))

theorem frameStart_touch :
    (frameStart order s).touch = { s.touch with contacts := (frameStart order s).touch.contacts } := by
  have hafter : (frameStart order s).touch = (engineFrame (storeFrame (afterAborts order (scanFrame (finishFrame s))))).touch :=
    (portFrames_sameBut _).touch (by simp)
  have hbefore := (frameStart_beforeEngine hrow order).touch (by simp)
  have hengine := engineFrame_touch (storeFrame (afterAborts order (scanFrame (finishFrame s))))
  rw [hbefore] at hengine
  rw [hafter]
  exact hengine

/-- In STEADY with both slots empty a frame start flips, and counts the quiet frames of each port. -/
theorem frameStart_steady (hp : s.engine.pending = none) (hslot : ∀ l, (s.port l).slot = none) :
    SameBut [.port .a, .port .b] (atEngineFrame s) (frameStart order s)
      ∧ ∀ l, (frameStart order s).port l = handedAll (offNotices s) (countQuiet (s.port l)) := by
  have hp' : (atEngineFrame s).engine.pending = none := by rw [atEngineFrame_engine, hp]
  have hidle (l) : ((atEngineFrame s).port l).slot = none := (atEngineFrame_slot s l).trans (hslot l)
  rw [frameStart_of_blanking hrow fun l _ => .inl (hslot l), engineFrame_of_steady hp']
  obtain ⟨hframe, hport⟩ := portFrames_steady hp'
  refine ⟨hframe, fun l => ?_⟩
  rw [hport l (.inl (hidle l)), Port.frameWaited_of_other _ (by rw [countQuiet_slot, hidle]; exact nofun),
    atEngineFrame_port, countQuiet_handedAll]

end

theorem countQuiet_online {p : Port} (h : p.state = .online) : countQuiet p =
    { p with quiet := p.quiet + 1, state := if p.quiet + 1 = p.quietFrames then .quiet else .online } := if_pos h

theorem countQuiet_not_online {p : Port} (h : p.state ≠ .online) : countQuiet p = p := if_neg h

/-- Settles O28: the scan engine's part is the one that moves the scan, and what stands behind it leaves the rest. -/
theorem frameStartAdvancesScan : Obligations.FrameStartAdvancesScan := by
  refine ⟨fun order s row h hrow => ⟨scanRow row s, ?_, ?_⟩, fun order s h hrow => ⟨frameStart order s, ?_, ?_⟩⟩
  · simp only [exec, execRowScan, unlessHeld_running h, hrow]
  · have h' : TakesPackets (scanRow row s) := ((scanRow_sameBut row s).phase (by simp)).trans h
    simp only [exec, execFrameStart, unlessHeld_running h, unlessHeld_running h', frameStart_scanRow hrow]
  · simp only [exec, execFrameStart, unlessHeld_running h]
  · obtain ⟨stalled, hposture⟩ := frameStart_posture order s
    obtain ⟨hcounter, hframes⟩ := frameStart_sameCounter (order := order) hrow
    have hafter := frameStart_afterScan hrow order
    refine ⟨frameStart_sameBut order s, (hafter.scan (by simp)).trans (scanFrame_scan s),
      (hafter.outputs (by simp)).trans (scanFrame_outputs s), by rw [hposture], frameStart_touch hrow order, hcounter,
      hframes, fun hp hslot => ?_⟩
    obtain ⟨hframe, hport⟩ := frameStart_steady hrow order hp hslot
    refine ⟨(hframe.engine (by simp)).trans (atEngineFrame_engine s),
      (hframe.posture (by simp)).trans ((atEngineFrame_sameBut s).posture (by simp)),
      (hframe.touch (by simp)).trans ((atEngineFrame_sameBut s).touch (by simp)), fun l => ?_⟩
    intro told
    have htold : told = handedAll (offNotices s) (s.port l) := (scanFrame_port s l).symm.trans (scanFrame_port_eq s l)
    obtain ⟨hstate, hquiet, hquietFrames, -⟩ := handedAll_fields (offNotices s) (s.port l)
    rw [hport l, htold, ← countQuiet_handedAll]
    refine ⟨fun hoff => countQuiet_not_online (hstate ▸ hoff), fun hon => ?_⟩
    rw [countQuiet_online (hstate.trans hon), hquiet, hquietFrames]

/-! ## The switch at a frame start (R58, R59) -/

section
variable {s : State} {p : Pending} (hp : s.engine.pending = some p)
include hp

/-- The links named late when the switch is made (R58). -/
def lateAt (p : Pending) : LinkSet := if p.armed then ⟨false, false⟩ else lateSet p

theorem engineFrame_of_due (h : p.armed = true ∨ p.window ≤ 1) : engineFrame s = makeSwitch (lateAt p) s := by
  cases ha : p.armed with
  | true => rw [engineFrame_of_armed hp ha, lateAt, if_pos ha]
  | false => rw [engineFrame_of_expired hp ha (h.resolve_left (by simp [ha])), lateAt, if_neg (by simp [ha])]

theorem atEngineFrame_pending : (atEngineFrame s).engine.pending = some p := by rw [atEngineFrame_engine, hp]

/-- A port at the frame start of the switch. -/
theorem switchFrame_port (late : LinkSet) {l : Link} (h :
      ((makeSwitch late (atEngineFrame s)).port l).slot = none
        ∨ NotArmedAtFrame ((makeSwitch late (atEngineFrame s)).port l)
        ∨ ((countQuiet ((makeSwitch late (atEngineFrame s)).port l)).frameWaited (s.scan.frame + 1)).slot = none) :
    (portFrames (makeSwitch late (atEngineFrame s))).port l =
      (countQuiet ((makeSwitch late (atEngineFrame s)).port l)).frameWaited (s.scan.frame + 1) := by
  have hpending : (makeSwitch late (atEngineFrame s)).engine.pending = none := by
    rw [makeSwitch_engine (atEngineFrame_pending hp)]
    rfl
  have hframe : (makeSwitch late (atEngineFrame s)).scan.frame = s.scan.frame + 1 := by
    rw [(makeSwitch_sameBut late _).scan (by simp), atEngineFrame_frame]
  have hport := (portFrames_steady hpending).2 l
  rw [hframe] at hport
  exact hport h

end

section
variable {s : State} {p : Pending} (hp : s.engine.pending = some p) {l : Link}
include hp

/-- The notices of the frame start of the switch, on top of a port that has counted its quiet frames. -/
def toldAtSwitch (p : Pending) (s : State) (l : Link) : Port :=
  handedAll (offNotices s ++ .active p.epoch p.slot p.generation (s.scan.frame + 1) (lateAt p)
    :: cancelsFor l .switch p.epoch (carriedTags s.engine) s.touch.contacts) (countQuiet (s.port l))

omit hp in
theorem toldAtSwitch_eq : countQuiet (toldOfSwitch (lateAt p) p (atEngineFrame s) l) = toldAtSwitch p s l := by
  rw [toldOfSwitch_atEngineFrame, countQuiet_handedAll, toldAtSwitch]

omit hp in
theorem toldAtSwitch_slot : (toldAtSwitch p s l).slot = (s.port l).slot := by
  rw [← toldAtSwitch_eq, countQuiet_slot, toldOfSwitch_slot, atEngineFrame_slot]

/-- A command that the switch answers ends with it. -/
theorem switchFrame_answers {r : Running} (hr : (s.port l).slot = some r)
    (hwho : p.requester = some l ∨ ∃ tag, r = .waitEpoch tag) :
    (portFrames (makeSwitch (lateAt p) (atEngineFrame s))).port l =
      (toldAtSwitch p s l).ended r .ok (.switched p.epoch p.slot (s.scan.frame + 1)) := by
  have hport : (makeSwitch (lateAt p) (atEngineFrame s)).port l =
      (toldOfSwitch (lateAt p) p (atEngineFrame s) l).ended r .ok (.switched p.epoch p.slot (s.scan.frame + 1)) := by
    rw [makeSwitch_port (atEngineFrame_pending hp), atEngineFrame_frame]
    exact switchedPort_of_answered ((atEngineFrame_slot s l).trans hr) hwho _ _
  rw [switchFrame_port hp _ (.inl (by rw [hport]; rfl)), hport, countQuiet_ended, toldAtSwitch_eq]
  exact Port.frameWaited_of_other _ nofun

/-- Any other command counts the frame start. -/
theorem switchFrame_keeps (h : (s.port l).slot = none
      ∨ (p.requester ≠ some l ∧ (∀ tag, (s.port l).slot ≠ some (.waitEpoch tag)) ∧ NotArmedAtFrame (s.port l))) :
    (portFrames (makeSwitch (lateAt p) (atEngineFrame s))).port l =
      (toldAtSwitch p s l).frameWaited (s.scan.frame + 1) := by
  have hport : (makeSwitch (lateAt p) (atEngineFrame s)).port l = toldOfSwitch (lateAt p) p (atEngineFrame s) l := by
    rw [makeSwitch_port (atEngineFrame_pending hp), atEngineFrame_frame]
    refine switchedPort_of_kept ?_ _ _
    rw [atEngineFrame_slot]
    exact h.imp_right fun hrun => ⟨hrun.1, hrun.2.1⟩
  rw [switchFrame_port hp, hport, toldAtSwitch_eq]
  rw [hport]
  refine h.imp (fun hidle => ?_) (fun hrun => .inl ?_)
  · rw [toldOfSwitch_slot, atEngineFrame_slot, hidle]
  · obtain ⟨-, -, -, -, harmed, -⟩ := handedAll_fields (.active p.epoch p.slot p.generation (atEngineFrame s).scan.frame
      (lateAt p) :: cancelsFor l .switch p.epoch (carriedTags (atEngineFrame s).engine) (atEngineFrame s).touch.contacts)
      ((atEngineFrame s).port l)
    rw [NotArmedAtFrame, toldOfSwitch, harmed, atEngineFrame_armed]
    exact hrun.2.2

end

theorem slotUse_switched (p : Pending) (e : Engine) : slotUse (switchedEngine p e) p.slot = .active
    ∧ ∀ n, n ≠ p.slot → slotUse (switchedEngine p e) n = .none :=
  ⟨by simp [slotUse, switchedEngine], fun n hn => by simp [slotUse, switchedEngine, pendingSlot, hn.symm]⟩

/-- Settles O29: the state and window decide whether the switch is made; each port is told, counts its quiet frames, and
has its command answered or counted. -/
theorem switchMadeAtFrameStart : Obligations.SwitchMadeAtFrameStart := by
  intro order s p h hrow hp hfirst now late kept off counted notAtFrame
  have hrun : frameStart order s = portFrames (engineFrame (atEngineFrame s)) :=
    frameStart_of_blanking hrow fun l hl => .inr (hfirst l · hl)
  have hp' := atEngineFrame_pending hp
  refine ⟨frameStart order s, by simp only [exec, execFrameStart, unlessHeld_running h], fun hdue => ?_, fun ha hw hnot => ?_⟩
  · rw [hrun, engineFrame_of_due hp' hdue]
    have hengine : (makeSwitch (lateAt p) (atEngineFrame s)).engine = switchedEngine p (atEngineFrame s).engine :=
      makeSwitch_engine hp' _
    obtain ⟨hframe, -⟩ := portFrames_steady (s := makeSwitch (lateAt p) (atEngineFrame s)) (by rw [hengine]; rfl)
    have htengine := (hframe.engine (by simp)).trans hengine
    have httouch := hframe.touch (by simp)
    obtain ⟨htouch, hcontacts⟩ := makeSwitch_touch hp' (lateAt p)
    rw [(atEngineFrame_sameBut s).touch (by simp), carriedTags_atEngineFrame] at hcontacts
    rw [(atEngineFrame_sameBut s).touch (by simp)] at htouch
    obtain ⟨huse, hothers⟩ := slotUse_switched p (atEngineFrame s).engine
    refine ⟨?_, ?_, ?_, ?_, ?_, ?_, ?_, fun l => ?_⟩
    · rw [htengine, switchedEngine, atEngineFrame_engine]
    · rw [hframe.posture (by simp), makeSwitch_posture hp', (atEngineFrame_sameBut s).posture (by simp)]
    · rw [htengine, huse]
    · rw [htengine]
      exact hothers
    · rw [htengine]
      rfl
    · rw [httouch]
      exact htouch
    · rw [httouch]
      exact hcontacts
    · intro told
      have htold : told = toldAtSwitch p s l := rfl
      have hslot := toldAtSwitch_slot (p := p) (s := s) (l := l)
      rw [htold]
      refine ⟨fun hidle => ?_, fun q hq hwho => switchFrame_answers hp hq hwho, fun tag n hq hreq hnot => ?_,
        fun tag hq hreq hnot => ?_⟩
      · rw [switchFrame_keeps hp (.inl hidle), Port.frameWaited_of_other _ (by rw [hslot, hidle]; exact nofun)]
      · rw [switchFrame_keeps hp (.inr ⟨hreq, by rw [hq]; exact nofun, hnot⟩)]
        exact ⟨fun hn => Port.frameWaited_counts _ (hslot.trans hq) hn,
          fun hn => Port.frameWaited_ends _ (hslot.trans hq) hn⟩
      · rw [switchFrame_keeps hp (.inr ⟨hreq, by rw [hq]; exact nofun, hnot⟩),
          Port.frameWaited_of_other _ (by rw [hslot, hq]; exact nofun)]
  · rw [hrun, engineFrame_of_waiting hp' ha hw]
    obtain ⟨hframe, hport⟩ := portFrames_of_apart (s := { atEngineFrame s with engine :=
        { (atEngineFrame s).engine with pending := some { p with window := p.window - 1 } } })
      (change := fun _ x => (countQuiet x).frameWaited (s.scan.frame + 1)) fun l x hx hscan _ => by
        have harmed : NotArmedAtFrame (x.port l) := fun a hxa =>
          hnot l a ((atEngineFrame_armed s l).symm.trans ((congrArg Port.armed hx).symm.trans hxa))
        have hframe : x.scan.frame = s.scan.frame + 1 := (congrArg Scan.frame hscan).trans (atEngineFrame_frame s)
        have := portFrame_port (l := l) (s := x) (.inl harmed)
        rwa [hframe, hx] at this
    refine ⟨?_, (hframe.posture (by simp)).trans ((atEngineFrame_sameBut s).posture (by simp)),
      (hframe.touch (by simp)).trans ((atEngineFrame_sameBut s).touch (by simp)), fun l hl => ?_⟩
    · refine (hframe.engine (by simp)).trans ?_
      rw [atEngineFrame_engine]
    · have hcounted : (countQuiet ((atEngineFrame s).port l)) = handedAll off (counted (s.port l)) := by
        rw [atEngineFrame_port, countQuiet_handedAll]
        rfl
      refine (hport l).trans ((Port.frameWaited_of_other _ ?_).trans hcounted)
      intro tag n heq
      exact hl tag n ((atEngineFrame_slot s l).symm.trans ((countQuiet_slot _).symm.trans heq))

end Sys2Proof.Machine
end

section
/-! PROOFS. The frame starts named for what happens at them, and the aborts armed for one (sections 3.4, 7.2, 7.5, 7.6).
Rows that are left of the frame touch of a port its stream and its counters alone. -/

namespace Sys2Proof.Machine

/-! ## The core of a port: all but its stream, its counters and its notices -/

/-- A port without its stream, its counters and its notices. -/
def Port.core (p : Port) : Port := { p with stream := [], hold := false, counters := Counters.zero, notices := [] }

section
variable (p : Port)

theorem core_handed (n : Notice) : (handed n p).core = p.core := by
  rw [handed_port]
  rfl

theorem core_handedAll (ns : List Notice) : (handedAll ns p).core = p.core := by
  induction ns generalizing p with
  | nil => rfl
  | cons n ns ih => exact (ih _).trans (core_handed p n)

theorem core_finished (st : Status) (res : Results) : (p.finished st res).core = p.core.finished st res := by
  cases h : p.slot with
  | none => rw [Port.finished_of_none h, Port.finished_of_none (p := p.core) h]
  | some r =>
    rw [Port.finished_of_some h, Port.finished_of_some (p := p.core) h]
    rfl

theorem core_aborted (quiet : Bool) : (p.aborted quiet).core = p.core.aborted quiet := by
  unfold Port.aborted
  split
  · rfl
  · exact core_finished p _ _

theorem core_countQuiet : (countQuiet p).core = countQuiet p.core := by
  unfold countQuiet Port.core
  dsimp only
  split <;> rfl

theorem Port.epochWaited_of_other {p : Port} (h : ∀ tag, p.slot ≠ some (.waitEpoch tag)) (res : Results) :
    p.epochWaited res = p := by
  unfold Port.epochWaited
  split
  · next tag hslot => exact absurd hslot (h tag)
  · rfl

theorem Port.epochWaited_of_wait {p : Port} {tag : Byte} (h : p.slot = some (.waitEpoch tag)) (res : Results) :
    p.epochWaited res = p.ended (.waitEpoch tag) .ok res := by
  simp [Port.epochWaited, h]

theorem core_epochWaited (res : Results) : (p.epochWaited res).core = p.core.epochWaited res := by
  by_cases h : ∃ tag, p.slot = some (.waitEpoch tag)
  · obtain ⟨tag, htag⟩ := h
    rw [Port.epochWaited_of_wait htag, Port.epochWaited_of_wait (p := p.core) htag]
    rfl
  · rw [not_exists] at h
    rw [Port.epochWaited_of_other h, Port.epochWaited_of_other (p := p.core) h]

theorem core_frameWaited (now : Word) : (p.frameWaited now).core = p.core.frameWaited now := by
  by_cases h : ∃ tag n, p.slot = some (.waitFrame tag n)
  · obtain ⟨tag, n, hslot⟩ := h
    by_cases hn : n ≤ 1
    · rw [Port.frameWaited_ends now hslot hn, Port.frameWaited_ends (p := p.core) now hslot hn]
      rfl
    · rw [Port.frameWaited_counts now hslot (Nat.not_le.mp hn),
        Port.frameWaited_counts (p := p.core) now hslot (Nat.not_le.mp hn)]
      rfl
  · have hother : ∀ tag n, p.slot ≠ some (.waitFrame tag n) := fun tag n hslot => h ⟨tag, n, hslot⟩
    rw [Port.frameWaited_of_other now hother, Port.frameWaited_of_other (p := p.core) now hother]

end

/-! ## The rows left of a frame -/

/-- The ports keep their cores, and the engine keeps its layouts. -/
abbrev SameWork (s t : State) : Prop :=
  (∀ l, (t.port l).core = (s.port l).core) ∧ t.engine.pending = s.engine.pending ∧ t.engine.active = s.engine.active
    ∧ t.engine.activeEpoch = s.engine.activeEpoch

theorem SameWork.refl (s : State) : SameWork s s := ⟨fun _ => rfl, rfl, rfl, rfl⟩

theorem SameWork.trans {s t u : State} (h : SameWork s t) (h' : SameWork t u) : SameWork s u := by
  obtain ⟨hcore, hpending, hactive, hepoch⟩ := h
  obtain ⟨hcore', hpending', hactive', hepoch'⟩ := h'
  exact ⟨fun l => (hcore' l).trans (hcore l), hpending'.trans hpending, hactive'.trans hactive, hepoch'.trans hepoch⟩

theorem SameWork.of_engine {s t : State} (hcore : ∀ l, (t.port l).core = (s.port l).core) (h : t.engine = s.engine) :
    SameWork s t := ⟨hcore, by rw [h], by rw [h], by rw [h]⟩

theorem examineOn_sameWork (l : Link) (row col : Nat) (s : State) : SameWork s (examineOn l row col s).1 := by
  refine .of_engine (fun m => ?_) (examineOn_engine l row col s)
  by_cases hm : m = l
  · subst hm
    rw [examineOn_port]
    rfl
  · rw [(examineOn_sameBut l row col s).port m (by simpa using hm)]

theorem countOn_sameWork (l : Link) (k : CounterName) (n : Nat) (s : State) : SameWork s (countOn l k n s) := by
  have hframe := countOn_sameBut l k n s
  refine .of_engine (fun m => ?_) (hframe.engine (by simp))
  by_cases hm : m = l
  · subst hm
    rw [countOn_port]
    rfl
  · rw [hframe.port m (by simpa using hm)]

theorem scanSegment_sameWork (row : Nat) (r : RuntimeRecord) (s : State) : SameWork s (scanSegment row r s).1 := by
  unfold scanSegment
  split
  · exact .refl s
  · next l _ _ =>
    have hexamined := examineOn_sameWork l row r.region.col0 s
    unfold scanStreamed
    split
    · next s1 p heq =>
      rw [heq] at hexamined
      exact hexamined.trans ⟨fun m => rfl, rfl, rfl, rfl⟩
    · next s1 heq =>
      rw [heq] at hexamined
      refine hexamined.trans ?_
      unfold countLate
      split
      · exact countOn_sameWork _ _ _ _
      · exact .refl _
  · exact .refl s

theorem scanSegments_sameWork (row : Nat) (rs : List RuntimeRecord) (s : State) :
    SameWork s (scanSegments row rs s).1 := by
  induction rs generalizing s with
  | nil => exact .refl s
  | cons r rs ih => exact (scanSegment_sameWork row r s).trans (ih _)

theorem scanRow_port (row : Nat) (s : State) (l : Link) : (scanRow row s).port l =
    (endOfRow .b row (endOfRow .a row (scanSegments row (rowSegments row s.engine) s).1)).port l := rfl

theorem scanRow_sameWork (row : Nat) (s : State) : SameWork s (scanRow row s) := by
  have hrow := (scanSegments_sameWork row (rowSegments row s.engine) s).trans
    ((examineOn_sameWork .a row Config.panelColumns _).trans (examineOn_sameWork .b row Config.panelColumns _))
  refine hrow.trans (.of_engine (fun l => by rw [scanRow_port]; rfl) ?_)
  rw [scanRow_engine, examineOn_engine, examineOn_engine]

theorem scanRowsLeft_sameWork (n : Nat) (s : State) : SameWork s (scanRowsLeft n s) := by
  induction n generalizing s with
  | zero => exact .refl s
  | succ n ih =>
    unfold scanRowsLeft
    split
    · exact .refl s
    · exact (scanRow_sameWork _ s).trans (ih _)

theorem finishFrame_sameWork (s : State) : SameWork s (finishFrame s) := scanRowsLeft_sameWork _ s

theorem finishFrame_row (s : State) : (finishFrame s).scan.row = none := congrArg Scan.row (finishFrame_scan s)

theorem finishFrame_frame (s : State) : (finishFrame s).scan.frame = s.scan.frame := by
  rw [finishFrame_scan]

/-- A frame start is that of the frame scanned to its end (R105). -/
theorem frameStart_finishFrame (order : LinkSet) (s : State) : frameStart order s = frameStart order (finishFrame s) := by
  rw [frameStart_eq, frameStart_eq, finishFrame_blanking (finishFrame_row s)]

theorem scanFrame_sameWork (s : State) : SameWork s (scanFrame s) :=
  .of_engine (fun l => by rw [scanFrame_port_eq, core_handedAll]) ((scanFrame_sameBut s).engine (by simp))

theorem SameWork.slot {s t : State} (h : SameWork s t) (l : Link) : (t.port l).slot = (s.port l).slot :=
  show (t.port l).core.slot = (s.port l).core.slot from congrArg Port.slot (h.1 l)

theorem SameWork.armed {s t : State} (h : SameWork s t) (l : Link) : (t.port l).armed = (s.port l).armed :=
  show (t.port l).core.armed = (s.port l).core.armed from congrArg Port.armed (h.1 l)

theorem SameWork.responses {s t : State} (h : SameWork s t) (l : Link) :
    (t.port l).responses = (s.port l).responses :=
  show (t.port l).core.responses = (s.port l).core.responses from congrArg Port.responses (h.1 l)

/-! ## A port whose WAIT no withdrawal ends -/

/-- A port whose running command, if it has one, is ended by an abort armed for a condition. -/
def Port.abortedAt (c : ArmCondition) (p : Port) : Port :=
  if p.slot = none then p
  else
    match p.armed with
    | none => p
    | some a => if a.condition = c then p.aborted a.quiet else p

section
variable {p : Port} (c : ArmCondition)

theorem Port.abortedAt_idle (h : p.slot = none) : p.abortedAt c = p := if_pos h

theorem Port.abortedAt_acts {r : Running} {quiet : Bool} (hslot : p.slot = some r)
    (harmed : p.armed = some { condition := c, quiet := quiet }) : p.abortedAt c = p.aborted quiet := by
  simp [Port.abortedAt, hslot, harmed]

theorem Port.abortedAt_other (h : ∀ a, p.armed = some a → a.condition ≠ c) : p.abortedAt c = p := by
  unfold Port.abortedAt
  split
  · rfl
  · split
    · rfl
    · next a ha => exact if_neg (h a ha)

theorem Port.abortedAt_slot : (p.abortedAt c).slot = p.slot ∨ (p.abortedAt c).slot = none := by
  unfold Port.abortedAt
  split
  · exact .inl rfl
  · split
    · exact .inl rfl
    · split
      · exact .inr (Port.aborted_slot _)
      · exact .inl rfl

theorem core_abortedAt : (p.abortedAt c).core = p.core.abortedAt c := by
  unfold Port.abortedAt
  split
  · next h => rw [if_pos (show p.core.slot = none from h)]
  · next h =>
    rw [if_neg (show ¬ p.core.slot = none from h), show p.core.armed = p.armed from rfl]
    cases p.armed with
    | none => rfl
    | some a =>
      dsimp only
      split
      · exact core_aborted p _
      · rfl

end

/-- Link `l` runs no SWITCH and requests no pending transition; `p` is the core of its port. -/
abbrev Waits (l : Link) (p : Port) (s : State) : Prop :=
  (s.port l).core = p ∧ (∀ tag, p.slot ≠ some (.switch tag)) ∧ ∀ q, s.engine.pending = some q → q.requester ≠ some l

section
variable {l : Link} {p : Port} {s : State} (h : Waits l p s)
include h

theorem Waits.slot_eq : (s.port l).slot = p.slot :=
  show (s.port l).core.slot = p.slot from congrArg Port.slot h.1

theorem Waits.of_sameWork {t : State} (hw : SameWork s t) : Waits l p t :=
  ⟨(hw.1 l).trans h.1, h.2.1, fun q hq => h.2.2 q (hw.2.1.symm.trans hq)⟩

theorem Waits.of_port {t : State} (hport : (t.port l).core = p) (ht : t.engine.pending = s.engine.pending) :
    Waits l p t := ⟨hport, h.2.1, fun q hq => h.2.2 q (ht.symm.trans hq)⟩

theorem Waits.withdraw (reason : WithdrawReason) (quiet : Bool) : Waits l p (withdraw reason quiet s) := by
  obtain ⟨hcore, hslot, hother⟩ := h
  cases hp : s.engine.pending with
  | none =>
    have hsame : Machine.withdraw reason quiet s = s := by simp [Machine.withdraw, hp]
    exact hsame.symm ▸ ⟨hcore, hslot, hother⟩
  | some q =>
    refine ⟨?_, hslot, fun q' hq' => ?_⟩
    · rw [withdraw_port hp, withdrawnPort, if_neg (hother q hp), core_handed, hcore]
    · rw [withdraw_engine, if_neg (by simp [hp])] at hq'
      cases hq'

/-- An abort of the other link changes nothing of a port's core. -/
theorem Waits.abortArmed_other {m : Link} (hm : m ≠ l) (c : ArmCondition) : Waits l p (abortArmed c m s) := by
  unfold abortArmed
  split
  · exact h
  · next a _ =>
    split
    · unfold abortRunning
      split
      · exact h
      · exact h.withdraw .aborted a.quiet
      · split
        · exact h.of_port (by rw [emptySlot_port_eq, if_neg hm, h.1]) (by rw [(emptySlot_sameBut m s).engine (by simp)])
        · exact h.of_port (by rw [finish_port_eq, if_neg hm, h.1]) (by rw [(finish_sameBut m _ _ s).engine (by simp)])
    · exact h

theorem Waits.abortArmed_self (c : ArmCondition) : Waits l (p.abortedAt c) (abortArmed c l s) := by
  obtain ⟨hcore, hslot, hother⟩ := id h
  have hport : SameBut [.port l] s (abortArmed c l s) ∧ (abortArmed c l s).port l = (s.port l).abortedAt c := by
    by_cases hact : ∃ r quiet, (s.port l).slot = some r ∧ (s.port l).armed = some { condition := c, quiet := quiet }
    · obtain ⟨r, quiet, hr, harmed⟩ := hact
      rw [abortArmed_acts harmed, Port.abortedAt_acts c hr harmed]
      exact abortRunning_wait hr (fun tag heq => hslot tag (h.slot_eq.symm.trans (heq ▸ hr))) quiet
    · have hnone : abortArmed c l s = s ∧ (s.port l).abortedAt c = s.port l := by
        cases hr : (s.port l).slot with
        | none => exact ⟨abortArmed_idle hr, Port.abortedAt_idle c hr⟩
        | some r =>
          have harmed : ∀ a, (s.port l).armed = some a → a.condition ≠ c := fun a ha hc =>
            hact ⟨r, a.quiet, hr, ha.trans (by rw [← hc])⟩
          exact ⟨Machine.abortArmed_other harmed, Port.abortedAt_other c harmed⟩
      rw [hnone.1, hnone.2]
      exact ⟨SameBut.refl _ s, rfl⟩
  refine ⟨by rw [hport.2, core_abortedAt, hcore], fun tag => ?_, fun q hq => hother q ?_⟩
  · obtain heq | heq := Port.abortedAt_slot (p := p) c
    · exact heq ▸ hslot tag
    · exact heq ▸ nofun
  · rwa [hport.1.engine (by simp)] at hq

theorem Waits.abortIfFirst (m : Link) (first : Bool) :
    Waits l (if m = l then if first = true then p.abortedAt .atFrame else p else p) (abortIfFirst m first s) := by
  unfold Machine.abortIfFirst
  cases first with
  | false => simpa using h
  | true =>
    by_cases hm : m = l
    · subst hm
      simpa using h.abortArmed_self .atFrame
    · simpa [hm] using h.abortArmed_other hm .atFrame

theorem Waits.afterAborts (order : LinkSet) :
    Waits l (if order.get l = true then p.abortedAt .atFrame else p) (afterAborts order s) := by
  have haborts := (h.abortIfFirst .a order.a).abortIfFirst .b order.b
  cases l with
  | a =>
    simp only [reduceCtorEq, if_true, if_false] at haborts
    exact haborts
  | b =>
    simp only [reduceCtorEq, if_true, if_false] at haborts
    exact haborts

theorem Waits.makeSwitch {q : Pending} (hq : s.engine.pending = some q) (late : LinkSet) :
    Waits l (p.epochWaited (.switched q.epoch q.slot s.scan.frame)) (makeSwitch late s) := by
  obtain ⟨hcore, hslot, hother⟩ := id h
  refine ⟨?_, fun tag => ?_, fun q' hq' => ?_⟩
  · rw [makeSwitch_port hq, if_neg (hother q hq), core_epochWaited, toldOfSwitch, core_handedAll, hcore]
  · by_cases hw : ∃ tag, p.slot = some (.waitEpoch tag)
    · obtain ⟨tag, htag⟩ := hw
      rw [Port.epochWaited_of_wait htag]
      exact nofun
    · rw [Port.epochWaited_of_other (not_exists.mp hw)]
      exact hslot tag
  · rw [makeSwitch_engine hq] at hq'
    cases hq'

/-- Where no switch is due, or no WAIT for EPOCH runs, the engine's part changes nothing of a port's core. -/
theorem Waits.engineFrame (hidle : (∀ tag, p.slot ≠ some (.waitEpoch tag))
      ∨ ∀ q, s.engine.pending = some q → q.armed = false ∧ 1 < q.window) : Waits l p (engineFrame s) := by
  cases hq : s.engine.pending with
  | none => exact (engineFrame_of_steady hq).symm ▸ h
  | some q =>
    by_cases hdue : q.armed = true ∨ q.window ≤ 1
    · have hother := hidle.resolve_right fun hnot => by
        obtain ⟨ha, hw⟩ := hnot q hq
        rw [ha] at hdue
        exact hdue.elim nofun (Nat.not_le.mpr hw)
      rw [engineFrame_of_due hq hdue]
      have hswitched := h.makeSwitch hq (lateAt q)
      rwa [Port.epochWaited_of_other hother] at hswitched
    · obtain ⟨ha, hw⟩ := not_or.mp hdue
      rw [engineFrame_of_waiting hq (by simpa using ha) (Nat.not_le.mp hw)]
      refine ⟨h.1, h.2.1, ?_⟩
      rintro q' ⟨⟩
      exact h.2.2 q hq

omit h in
theorem frameWaited_not_switch (h : ∀ tag, p.slot ≠ some (.switch tag)) (now : Word) (tag : Byte) :
    (p.frameWaited now).slot ≠ some (.switch tag) := by
  unfold Port.frameWaited
  split
  · split
    · exact nofun
    · exact nofun
  · exact h tag

theorem Waits.portFrame_self :
    Waits l (((countQuiet p).frameWaited s.scan.frame).abortedAt .atFrame) (portFrame l s) := by
  have hframe := (modPort_sameBut l countQuiet s).trans (frameWait_sameBut l (s.modPort l countQuiet))
  refine Waits.abortArmed_self ⟨?_, fun tag => ?_, fun q hq => ?_⟩ .atFrame
  · rw [frameWait_port, port_modPort, core_frameWaited, core_countQuiet, h.1]
    rfl
  · exact frameWaited_not_switch (fun tag => (countQuiet_slot p).symm ▸ h.2.1 tag) _ tag
  · rw [hframe.engine (by simp)] at hq
    exact h.2.2 q hq

theorem Waits.portFrame_other {m : Link} (hm : m ≠ l) : Waits l p (portFrame m s) := by
  have hframe := (modPort_sameBut m countQuiet s).trans (frameWait_sameBut m (s.modPort m countQuiet))
  exact (h.of_port (by rw [hframe.port l (by simpa using hm.symm), h.1])
    (by rw [hframe.engine (by simp)])).abortArmed_other hm .atFrame

theorem Waits.portFrames :
    Waits l (((countQuiet p).frameWaited s.scan.frame).abortedAt .atFrame) (portFrames s) := by
  unfold Machine.portFrames
  cases l with
  | a => exact h.portFrame_self.portFrame_other nofun
  | b =>
    have := (h.portFrame_other (m := .a) nofun).portFrame_self
    rwa [(portFrame_sameBut .a s).scan (by simp)] at this

end

/-! ## A link that waits, through a frame start -/

/-- The state in which the transition engine has its part of a frame start. -/
def beforeEngine (order : LinkSet) (s : State) : State :=
  storeFrame (afterAborts order (scanFrame (finishFrame s)))

theorem scanned_sameWork (s : State) : SameWork s (scanFrame (finishFrame s)) :=
  (finishFrame_sameWork s).trans (scanFrame_sameWork _)

theorem beforeEngine_frame (order : LinkSet) (s : State) : (beforeEngine order s).scan.frame = s.scan.frame + 1 := by
  have hframe := (afterAborts_sameBut order (scanFrame (finishFrame s))).trans ((storeFrame_sameBut _).mono (by simp))
  have hscan : (beforeEngine order s).scan = (scanFrame (finishFrame s)).scan := hframe.scan (by simp)
  rw [hscan, scanFrame_scan, finishFrame_frame]

theorem engineFrame_frame (order : LinkSet) (s : State) :
    (engineFrame (beforeEngine order s)).scan.frame = s.scan.frame + 1 := by
  rw [(engineFrame_sameBut _).scan (by simp), beforeEngine_frame]

section
variable {l : Link} {s : State} {order : LinkSet}

theorem beforeEngine_waits {p : Port} (h : Waits l p s) :
    Waits l (if order.get l = true then p.abortedAt .atFrame else p) (beforeEngine order s) :=
  ((h.of_sameWork (scanned_sameWork s)).afterAborts order).of_port
    (h.of_sameWork (scanned_sameWork s) |>.afterAborts order).1 rfl

/-- A port's own part of a frame start, an abort armed for it taken last. -/
def Port.frameDone (now : Word) (p : Port) : Port := ((countQuiet p).frameWaited now).abortedAt .atFrame

/-- The core that the frame start leaves in a port, its WAIT for EPOCH not answered. -/
theorem frameStart_waits {p : Port} (h : Waits l p s)
    (hidle : (∀ tag, (if order.get l = true then p.abortedAt .atFrame else p).slot ≠ some (.waitEpoch tag))
      ∨ ∀ q, (beforeEngine order s).engine.pending = some q → q.armed = false ∧ 1 < q.window) :
    ((frameStart order s).port l).core =
      (if order.get l = true then p.abortedAt .atFrame else p).frameDone (s.scan.frame + 1) := by
  have := ((beforeEngine_waits (order := order) h).engineFrame hidle).portFrames.1
  rwa [engineFrame_frame] at this

theorem abortIfFirst_pending (m : Link) (first : Bool) (s : State) :
    (abortIfFirst m first s).engine.pending = s.engine.pending ∨ (abortIfFirst m first s).engine.pending = none := by
  unfold abortIfFirst
  split
  · obtain heq | heq := abortArmed_engine .atFrame m s <;> rw [heq]
    · exact .inl rfl
    · exact .inr rfl
  · exact .inl rfl

theorem beforeEngine_pending (order : LinkSet) (s : State) :
    (beforeEngine order s).engine.pending = s.engine.pending ∨ (beforeEngine order s).engine.pending = none := by
  have hscanned : (scanFrame (finishFrame s)).engine.pending = s.engine.pending := (scanned_sameWork s).2.1
  have hpending : (beforeEngine order s).engine.pending =
    (abortIfFirst .b order.b (abortIfFirst .a order.a (scanFrame (finishFrame s)))).engine.pending := rfl
  rw [hpending]
  obtain hb | hb := abortIfFirst_pending .b order.b (abortIfFirst .a order.a (scanFrame (finishFrame s)))
  · rw [hb, ← hscanned]
    exact abortIfFirst_pending .a order.a _
  · exact .inr hb

/-- No transition is withdrawn by an abort that is not armed for the frame start, or that meets no SWITCH. -/
theorem abortIfFirst_apart {m : Link} {s : State}
    (h : NotArmedAtFrame (s.port m) ∨ ∀ tag, (s.port m).slot ≠ some (.switch tag)) (first : Bool) :
    SameBut [.port m] s (abortIfFirst m first s) := by
  unfold abortIfFirst
  split
  · obtain hnot | hwait := h
    · rw [abortArmed_other hnot]
      exact SameBut.refl _ s
    · unfold abortArmed
      split
      · exact SameBut.refl _ s
      · next a _ =>
        split
        · cases hr : (s.port m).slot with
          | none => simpa [abortRunning, hr] using SameBut.refl _ s
          | some r => exact (abortRunning_wait hr (fun tag heq => hwait tag (heq ▸ hr)) a.quiet).1
        · exact SameBut.refl _ s
  · exact SameBut.refl _ s

theorem beforeEngine_kept {order : LinkSet} {s : State}
    (h : ∀ m, NotArmedAtFrame (s.port m) ∨ ∀ tag, (s.port m).slot ≠ some (.switch tag)) :
    (beforeEngine order s).engine.pending = s.engine.pending := by
  have hwork := scanned_sameWork s
  have hcase (m : Link) (x : State) (hx : x.port m = (scanFrame (finishFrame s)).port m) :
      NotArmedAtFrame (x.port m) ∨ ∀ tag, (x.port m).slot ≠ some (.switch tag) := by
    rw [hx, NotArmedAtFrame, hwork.armed m, hwork.slot m]
    exact h m
  have ha := abortIfFirst_apart (hcase .a _ rfl) order.a
  have hb := abortIfFirst_apart (hcase .b _ (ha.port .b (by simp))) order.b
  have hengine : (afterAborts order (scanFrame (finishFrame s))).engine = (scanFrame (finishFrame s)).engine :=
    (hb.engine (by simp)).trans (ha.engine (by simp))
  exact (congrArg Engine.pending hengine).trans hwork.2.1

/-- The frame start at which the switch is made leaves the new layout active. -/
theorem frameStart_switches {p : Pending} (hp : (beforeEngine order s).engine.pending = some p)
    (hdue : p.armed = true ∨ p.window ≤ 1) : (frameStart order s).engine.active.slot = some p.slot
      ∧ (frameStart order s).engine.activeEpoch = p.epoch ∧ (frameStart order s).engine.pending = none := by
  have hengine : (engineFrame (beforeEngine order s)).engine = switchedEngine p (beforeEngine order s).engine := by
    rw [engineFrame_of_due hp hdue, makeSwitch_engine hp]
  have hframe := (portFrames_steady (s := engineFrame (beforeEngine order s)) (by rw [hengine]; rfl)).1
  have hafter : (frameStart order s).engine = switchedEngine p (beforeEngine order s).engine :=
    (hframe.engine (by simp)).trans hengine
  rw [hafter]
  exact ⟨rfl, rfl, rfl⟩

end

/-! ## How a WAIT ends -/

/-- A port's command has ended with these responses behind those it held. -/
abbrev EndedWith (p q : Port) (rs : List Response) : Prop :=
  q.slot = none ∧ q.armed = none ∧ q.responses = p.responses ++ rs

section
variable {p : Port} {q : Running} (now : Word)

theorem countQuiet_responses (p : Port) : (countQuiet p).responses = p.responses := by unfold countQuiet; split <;> rfl

theorem frameDone_of_idle {x : Port} (h : x.slot = none) : x.frameDone now = countQuiet x := by
  have hslot := (countQuiet_slot x).trans h
  have hwaited : (countQuiet x).frameWaited now = countQuiet x := Port.frameWaited_of_other now (by rw [hslot]; exact nofun)
  rw [Port.frameDone, hwaited, Port.abortedAt_idle _ hslot]

theorem EndedWith.frameDone {x : Port} {rs : List Response} (h : EndedWith p x rs) : EndedWith p (x.frameDone now) rs := by
  obtain ⟨hslot, harmed, hresponses⟩ := h
  rw [frameDone_of_idle now hslot]
  exact ⟨(countQuiet_slot x).trans hslot, (countQuiet_armed x).trans harmed, (countQuiet_responses x).trans hresponses⟩

theorem endedWith_ended (r : Running) (st : Status) (res : Results) :
    EndedWith p (p.ended r st res) [{ tag := r.tag, code := r.code, status := st, results := res }] := ⟨rfl, rfl, rfl⟩

/-- The response of a WAIT that an abort ends. -/
def abortResponses (tag : Byte) (quiet : Bool) : List Response :=
  if quiet = true then [] else [{ tag := tag, code := 0x61, status := .aborted, results := .none }]

theorem endedWith_aborted {x : Port} {r : Running} (hslot : x.slot = some r) (hr : ∀ tag, r ≠ .switch tag) (quiet : Bool) :
    EndedWith x (x.aborted quiet) (abortResponses r.tag quiet) := by
  rw [Port.aborted_eq hslot hr]
  exact ⟨rfl, rfl, rfl⟩

/-- A WAIT for FRAME whose count reaches 0 completes; the abort finds the slot empty. -/
theorem frameDone_completes {tag : Byte} {n : Nat} (hslot : p.slot = some (.waitFrame tag n)) (hn : n ≤ 1) :
    EndedWith p (p.frameDone now) [{ tag := tag, code := 0x61, status := .ok, results := .frame now }] := by
  have hslot' := (countQuiet_slot p).trans hslot
  rw [Port.frameDone, Port.frameWaited_ends now hslot' hn, Port.abortedAt_idle _ rfl]
  exact ⟨rfl, rfl, congrArg (· ++ _) (countQuiet_responses p)⟩

/-- With no abort armed a WAIT for FRAME counts. -/
theorem frameDone_counts {tag : Byte} {n : Nat} (hslot : p.slot = some (.waitFrame tag n)) (hn : 1 < n)
    (harmed : p.armed = none) : (p.frameDone now).slot = some (.waitFrame tag (n - 1))
      ∧ (p.frameDone now).responses = p.responses := by
  have harmed' := (countQuiet_armed p).trans harmed
  rw [Port.frameDone, Port.frameWaited_counts now ((countQuiet_slot p).trans hslot) hn, Port.abortedAt_other]
  · exact ⟨rfl, countQuiet_responses p⟩
  · exact fun a ha => absurd (harmed'.symm.trans ha) nofun

/-- A WAIT that does not complete is counted, and then ended by its abort. -/
theorem frameDone_aborts {quiet : Bool} (hslot : p.slot = some q) (hq : ∀ tag, q ≠ .switch tag)
    (harmed : p.armed = some { condition := .atFrame, quiet := quiet }) (hcount : ∀ tag n, q = .waitFrame tag n → 1 < n) :
    EndedWith p (p.frameDone now) (abortResponses q.tag quiet) := by
  have hslot' := (countQuiet_slot p).trans hslot
  obtain ⟨r, hr, hswitch, htag, harmed', hresponses⟩ : ∃ r, ((countQuiet p).frameWaited now).slot = some r
      ∧ (∀ tag, r ≠ .switch tag) ∧ r.tag = q.tag
      ∧ ((countQuiet p).frameWaited now).armed = some { condition := .atFrame, quiet := quiet }
      ∧ ((countQuiet p).frameWaited now).responses = p.responses := by
    by_cases hf : ∃ tag n, q = .waitFrame tag n
    · obtain ⟨tag, n, rfl⟩ := hf
      rw [Port.frameWaited_counts now hslot' (hcount tag n rfl)]
      exact ⟨_, rfl, nofun, rfl, (countQuiet_armed p).trans harmed, countQuiet_responses p⟩
    · rw [Port.frameWaited_of_other now fun tag n heq => hf ⟨tag, n, Option.some.inj (hslot'.symm.trans heq)⟩]
      exact ⟨q, hslot', hq, rfl, (countQuiet_armed p).trans harmed, countQuiet_responses p⟩
  obtain ⟨hgone, hdisarmed, hanswered⟩ := endedWith_aborted hr hswitch quiet
  rw [Port.frameDone, Port.abortedAt_acts _ hr harmed', ← htag]
  exact ⟨hgone, hdisarmed, hanswered.trans (by rw [hresponses])⟩

end

end Sys2Proof.Machine
end

section
/-! PROOFS. The frame starts named for what happens at them, and the aborts armed for one: the statements. -/

namespace Sys2Proof.Machine

/-! ## Which state a link is in, through a frame start (R147, R148) -/

/-- A port's link state and its quiet counting. -/
def Port.line (p : Port) : PortState × Nat × Nat := (p.state, p.quiet, p.quietFrames)

theorem line_handed (n : Notice) (p : Port) : (handed n p).line = p.line := by
  rw [handed_port]
  rfl

theorem line_handedAll (ns : List Notice) (p : Port) : (handedAll ns p).line = p.line := by
  induction ns generalizing p with
  | nil => rfl
  | cons n ns ih => exact (ih _).trans (line_handed n p)

theorem line_finished (st : Status) (res : Results) (p : Port) : (p.finished st res).line = p.line := by
  cases h : p.slot with
  | none => rw [Port.finished_of_none h]
  | some r => rw [Port.finished_of_some h]; rfl

theorem line_epochWaited (res : Results) (p : Port) : (p.epochWaited res).line = p.line := by
  unfold Port.epochWaited
  split <;> rfl

theorem line_frameWaited (now : Word) (p : Port) : (p.frameWaited now).line = p.line := by
  unfold Port.frameWaited
  split
  · split <;> rfl
  · rfl

/-- The ports keep their link states. -/
abbrev SameLine (s t : State) : Prop := ∀ m, (t.port m).line = (s.port m).line

theorem SameLine.trans {s t u : State} (h : SameLine s t) (h' : SameLine t u) : SameLine s u :=
  fun m => (h' m).trans (h m)

theorem withdraw_sameLine (reason : WithdrawReason) (quiet : Bool) (s : State) : SameLine s (withdraw reason quiet s) := by
  intro m
  cases hp : s.engine.pending with
  | none => simp [withdraw, hp]
  | some p =>
    rw [withdraw_port hp, withdrawnPort]
    split
    · split
      · exact line_handed _ _
      · rw [line_finished, line_handed]
    · exact line_handed _ _

theorem abortArmed_sameLine (c : ArmCondition) (l : Link) (s : State) : SameLine s (abortArmed c l s) := by
  unfold abortArmed
  split
  · exact fun _ => rfl
  · split
    · unfold abortRunning
      split
      · exact fun _ => rfl
      · exact withdraw_sameLine _ _ s
      · intro m
        split
        · rw [emptySlot_port_eq]
          split <;> rfl
        · rw [finish_port_eq]
          split
          · exact line_finished _ _ _
          · rfl
    · exact fun _ => rfl

theorem afterAborts_sameLine (order : LinkSet) (s : State) : SameLine s (afterAborts order s) := by
  have hfirst (m : Link) (first : Bool) (x : State) : SameLine x (abortIfFirst m first x) := by
    unfold abortIfFirst
    split
    · exact abortArmed_sameLine _ _ _
    · exact fun _ => rfl
  exact (hfirst .a order.a s).trans (hfirst .b order.b _)

theorem engineFrame_sameLine (s : State) : SameLine s (engineFrame s) := by
  obtain h | ⟨p, late, hp, h⟩ | ⟨p, -, h⟩ := engineFrame_cases s
  · exact h.symm ▸ fun _ => rfl
  · intro m
    rw [h, makeSwitch_port hp, line_epochWaited]
    split
    · rw [line_finished, toldOfSwitch, line_handedAll]
    · rw [toldOfSwitch, line_handedAll]
  · exact h.symm ▸ fun _ => rfl

theorem portFrame_line (l m : Link) (s : State) :
    ((portFrame l s).port m).line = if m = l then (countQuiet (s.port m)).line else (s.port m).line := by
  have hbefore : ((frameWait l (s.modPort l countQuiet)).port m).line =
      if m = l then (countQuiet (s.port m)).line else (s.port m).line := by
    by_cases hm : m = l
    · subst hm
      rw [if_pos rfl, frameWait_port, line_frameWaited, port_modPort]
    · rw [if_neg hm, (frameWait_sameBut l _).port m (by simpa using hm), port_modPort_ne _ _ _ hm]
  exact (abortArmed_sameLine .atFrame l _ m).trans hbefore

/-- Every port counts one quiet frame at a frame start (R148). -/
theorem frameStart_line (order : LinkSet) (s : State) (l : Link) :
    ((frameStart order s).port l).line = (countQuiet (s.port l)).line := by
  have hscanned : ((beforeEngine order s).port l).line = (s.port l).line := by
    have hwork : ((scanFrame (finishFrame s)).port l).line = (s.port l).line :=
      show ((scanFrame (finishFrame s)).port l).core.line = (s.port l).core.line from
        congrArg Port.line ((scanned_sameWork s).1 l)
    exact (afterAborts_sameLine order _ l).trans hwork
  have hline : ((engineFrame (beforeEngine order s)).port l).line = (s.port l).line :=
    (engineFrame_sameLine _ l).trans hscanned
  have hcount {p q : Port} (h : p.line = q.line) : (countQuiet p).line = (countQuiet q).line := by
    obtain ⟨hstate, hquiet, hframes⟩ : p.state = q.state ∧ p.quiet = q.quiet ∧ p.quietFrames = q.quietFrames := by
      simpa [Port.line] using h
    unfold countQuiet
    rw [hstate]
    split
    · simp [Port.line, hquiet, hframes]
    · exact h
  have hports : ((frameStart order s).port l).line = (countQuiet ((engineFrame (beforeEngine order s)).port l)).line := by
    rw [show frameStart order s = portFrame .b (portFrame .a (engineFrame (beforeEngine order s))) from rfl]
    cases l with
    | a => simp [portFrame_line]
    | b =>
      rw [portFrame_line, if_pos rfl]
      exact hcount (by simp [portFrame_line])
  rw [hports, hcount hline]

/-! ## The named frame starts (log 8) -/

theorem completionsFirst_get (l : Link) : completionsFirst.get l = false := by cases l <;> rfl

theorem beforeEngine_completionsFirst (s : State) :
    (beforeEngine completionsFirst s).engine.pending = s.engine.pending := (scanned_sameWork s).2.1

theorem waits_of_running {l : Link} {s : State} {q : Running} (hslot : (s.port l).slot = some q)
    (hq : ∀ tag, q ≠ .switch tag) (hreq : ∀ p, s.engine.pending = some p → p.requester ≠ some l) :
    Waits l (s.port l).core s :=
  ⟨rfl, fun tag htag => hq tag (Option.some.inj (hslot.symm.trans htag)), hreq⟩

/-- A port whose core has ended with some responses has itself. -/
theorem EndedWith.of_core {p q : Port} {rs : List Response} (h : EndedWith p.core q.core rs) : EndedWith p q rs := h

/-- Settles O30: each row is the frame start when its condition holds, and what it names happens then. -/
theorem namedFrameStartsAreFrameStarts : Obligations.NamedFrameStartsAreFrameStarts := by
  intro s h
  refine ⟨fun p hp ha hw => ?_, fun hnot => ?_, fun l => ⟨fun hon hq => ?_, fun hnot => ?_, fun tag n hslot hn hreq => ?_,
    fun hnot => ?_⟩⟩
  · have hending : windowEnding s = true := by simp [windowEnding, hp, ha, hw]
    refine ⟨frameStart completionsFirst s, ?_, ?_,
      frameStart_switches ((beforeEngine_completionsFirst s).trans hp) (.inr hw)⟩
    · simp only [exec, execAckWindowExpiry, unlessHeld_running h, hending, if_true]
    · simp only [exec, execFrameStart, unlessHeld_running h, completionsFirst]
  · have hending : windowEnding s = false := by
      unfold windowEnding
      split
      · rfl
      · next p hp => obtain ha | hw := hnot p hp <;> simp [*]
    simp only [exec, execAckWindowExpiry, unlessHeld_running h, hending, Bool.false_eq_true, if_false]
  · have hcoming : quietComing (s.port l) = true := by simp [quietComing, hon, hq]
    have hline := frameStart_line completionsFirst s l
    rw [countQuiet_online hon, if_pos hq] at hline
    obtain ⟨hstate, hquiet, -⟩ := Prod.mk.inj hline |>.imp_right Prod.mk.inj
    refine ⟨frameStart completionsFirst s, ?_, ?_, hstate, hquiet.trans hq⟩
    · simp only [exec, execQuietDetect, unlessHeld_running h, hcoming, if_true]
    · simp only [exec, execFrameStart, unlessHeld_running h, completionsFirst]
  · have hcoming : quietComing (s.port l) = false := by
      rw [quietComing, decide_eq_false_iff_not, not_and_or]
      exact hnot
    simp only [exec, execQuietDetect, unlessHeld_running h, hcoming, Bool.false_eq_true, if_false]
  · have hending : waitEnding (s.port l) = true := by simp [waitEnding, hslot, hn]
    have hcore := frameStart_waits (order := completionsFirst) (waits_of_running hslot nofun hreq) (by
      rw [completionsFirst_get, if_neg Bool.false_ne_true]
      exact .inl fun tag' htag => absurd (hslot.symm.trans htag) nofun)
    rw [completionsFirst_get, if_neg Bool.false_ne_true] at hcore
    have hended : EndedWith (s.port l) ((frameStart completionsFirst s).port l)
        [{ tag := tag, code := 0x61, status := .ok, results := .frame (s.scan.frame + 1) }] := by
      refine .of_core ?_
      rw [hcore]
      exact frameDone_completes (p := (s.port l).core) _ hslot hn
    refine ⟨frameStart completionsFirst s, ?_, ?_, hended⟩
    · simp only [exec, execWaitFrameDone, unlessHeld_running h, hending, if_true]
    · simp only [exec, execFrameStart, unlessHeld_running h, completionsFirst]
  · have hending : waitEnding (s.port l) = false := by
      unfold waitEnding
      split
      · next tag n hslot => exact decide_eq_false (Nat.not_le.mpr (hnot tag n hslot))
      · rfl
    simp only [exec, execWaitFrameDone, unlessHeld_running h, hending, Bool.false_eq_true, if_false]

/-! ## A SWITCH whose abort is armed for the frame start (R67, R155) -/

section
variable {l : Link} {s : State} {tag : Byte} {p : Pending} {quiet : Bool}

/-- The core that the withdrawal of its own SWITCH leaves in a port. -/
theorem withdrawn_switch (hp : s.engine.pending = some p) (hreq : p.requester = some l)
    (hslot : (s.port l).slot = some (.switch tag)) :
    EndedWith (s.port l) ((withdraw .aborted quiet s).port l)
      (if quiet = true then []
        else [{ tag := tag, code := 0x20, status := .aborted, results := .epoch p.epoch }]) := by
  obtain ⟨-, -, -, hhanded, -, -, -, hresponses⟩ := handed_fields (.withdrawn p.epoch p.slot .aborted) (s.port l)
  rw [withdraw_port hp, withdrawnPort, if_pos hreq]
  cases quiet with
  | true => exact ⟨rfl, rfl, by simp [Port.emptied, hresponses]⟩
  | false =>
    rw [if_neg Bool.false_ne_true, Port.finished_of_some (hhanded.trans hslot)]
    exact ⟨rfl, rfl, congrArg (· ++ _) hresponses⟩

theorem withdraw_armed_other (hp : s.engine.pending = some p) (hreq : p.requester = some l) {m : Link} (hm : m ≠ l) :
    ((withdraw .aborted quiet s).port m).armed = (s.port m).armed := by
  obtain ⟨-, -, -, -, harmed, -⟩ := handed_fields (.withdrawn p.epoch p.slot .aborted) (s.port m)
  rw [withdraw_port hp, withdrawnPort, if_neg fun heq => hm (Option.some.inj (heq.symm.trans hreq)), harmed]

theorem not_armed_of_none {c : ArmCondition} {x : Port} (h : x.armed = none) : ∀ a, x.armed = some a → a.condition ≠ c :=
  fun _ ha => absurd (h.symm.trans ha) nofun

theorem withdraw_pending (hp : s.engine.pending = some p) : (withdraw .aborted quiet s).engine = withdrawnEngine s.engine := by
  rw [withdraw_engine, if_neg (by simp [hp])]

section
variable (hp : s.engine.pending = some p) (hreq : p.requester = some l) (hslot : (s.port l).slot = some (.switch tag))
  (harmed : (s.port l).armed = some { condition := .atFrame, quiet := quiet }) (hother : (s.port l.other).armed = none)
include hp hreq hslot harmed hother

/-- Taken first, the abort withdraws the transition. -/
theorem afterAborts_withdraws {order : LinkSet} (hfirst : order.get l = true) :
    afterAborts order s = withdraw .aborted quiet s := by
  have hself : abortArmed .atFrame l s = withdraw .aborted quiet s :=
    (abortArmed_acts harmed).trans (abortRunning_switch hslot quiet)
  have hskip (first : Bool) (x : State) (hx : (x.port l.other).armed = none) : abortIfFirst l.other first x = x := by
    unfold abortIfFirst
    rw [abortArmed_other (not_armed_of_none hx), ite_self]
  have hgone := (withdraw_armed_other (quiet := quiet) hp hreq (Link.other_ne l)).trans hother
  unfold afterAborts
  cases l with
  | a =>
    rw [show abortIfFirst .a order.a s = withdraw .aborted quiet s from (if_pos hfirst).trans hself]
    exact hskip order.b _ hgone
  | b =>
    rw [show abortIfFirst .a order.a s = s from hskip order.a s hother]
    exact (if_pos hfirst).trans hself

/-- Taken last, the abort withdraws the transition that the frame start has not ended. -/
theorem portFrames_withdraws : EndedWith (s.port l) ((portFrames s).port l)
      (if quiet = true then [] else [{ tag := tag, code := 0x20, status := .aborted, results := .epoch p.epoch }])
    ∧ (portFrames s).engine = withdrawnEngine s.engine := by
  have hself (x : State) (hx : x.port l = s.port l) (hxp : x.engine = s.engine) :
      EndedWith (s.port l) ((portFrame l x).port l)
        (if quiet = true then [] else [{ tag := tag, code := 0x20, status := .aborted, results := .epoch p.epoch }])
      ∧ (portFrame l x).engine = withdrawnEngine s.engine := by
    have hcounted : (x.modPort l countQuiet).port l = countQuiet (s.port l) := by rw [port_modPort, hx]
    have hwait : frameWait l (x.modPort l countQuiet) = x.modPort l countQuiet := by
      unfold frameWait
      rw [hcounted, countQuiet_slot, hslot]
    have hrun : portFrame l x = withdraw .aborted quiet (x.modPort l countQuiet) := by
      unfold portFrame
      rw [hwait, abortArmed_acts (by rw [hcounted, countQuiet_armed, harmed]),
        abortRunning_switch (by rw [hcounted, countQuiet_slot, hslot])]
    have hpending : (x.modPort l countQuiet).engine.pending = some p := by rw [modPort_engine, hxp, hp]
    rw [hrun, withdraw_pending hpending, modPort_engine, hxp]
    obtain ⟨hgone, hdisarmed, hresponses⟩ := withdrawn_switch (quiet := quiet) hpending hreq
      (by rw [hcounted, countQuiet_slot, hslot])
    exact ⟨⟨hgone, hdisarmed, by rw [hresponses, hcounted, countQuiet_responses]⟩, rfl⟩
  unfold portFrames
  cases l with
  | a =>
    obtain ⟨hended, hengine⟩ := hself s rfl rfl
    have hsteady := portFrame_steady (s := portFrame .a s) (by rw [hengine]; rfl) .b
    rw [hsteady.port .a (by simp), hsteady.engine (by simp)]
    exact ⟨hended, hengine⟩
  | b =>
    obtain ⟨hframe, -⟩ := portFrame_port (l := .a) (s := s) (.inl (not_armed_of_none hother))
    exact hself _ (hframe.port .b (by simp)) (hframe.engine (by simp))

end

end

/-- Once a withdrawal has ended a port's command, the rest of the frame start counts its quiet frames. -/
theorem frame_afterWithdrawal {l : Link} {w : State} (hp : w.engine.pending = none) (hidle : (w.port l).slot = none) :
    (portFrames (engineFrame (storeFrame w))).port l = countQuiet (w.port l)
      ∧ (portFrames (engineFrame (storeFrame w))).engine = (storeFrame w).engine := by
  have hp' : (storeFrame w).engine.pending = none := hp
  rw [engineFrame_of_steady hp']
  obtain ⟨hframe, hport⟩ := portFrames_steady hp'
  refine ⟨(hport l (.inl hidle)).trans (Port.frameWaited_of_other _ ?_), hframe.engine (by simp)⟩
  rw [countQuiet_slot]
  exact fun tag n hslot => absurd (hidle.symm.trans hslot) nofun

theorem EndedWith.countQuiet {p x : Port} {rs : List Response} (h : EndedWith p x rs) :
    EndedWith p (countQuiet x) rs :=
  ⟨(countQuiet_slot x).trans h.1, (countQuiet_armed x).trans h.2.1, (countQuiet_responses x).trans h.2.2⟩

theorem EndedWith.of_responses {p q x : Port} {rs : List Response} (h : EndedWith q x rs)
    (hq : q.responses = p.responses) : EndedWith p x rs :=
  ⟨h.1, h.2.1, h.2.2.trans (congrArg (· ++ rs) hq)⟩

theorem afterAborts_last {l : Link} {s : State} {order : LinkSet} (hother : (s.port l.other).armed = none)
    (hlast : order.get l = false) : afterAborts order (scanFrame (finishFrame s)) = scanFrame (finishFrame s) :=
  afterAborts_none fun m hm => by
    obtain rfl | rfl := Link.eq_or_other l m
    · exact absurd (hlast.symm.trans hm) nofun
    · exact .inr (not_armed_of_none (((scanned_sameWork s).armed _).trans hother))

section
variable {l : Link} {s : State} {tag : Byte} {p : Pending} {quiet : Bool} {order : LinkSet}
  (hp : s.engine.pending = some p) (hreq : p.requester = some l) (hslot : (s.port l).slot = some (.switch tag))
  (harmed : (s.port l).armed = some { condition := .atFrame, quiet := quiet }) (hother : (s.port l.other).armed = none)
include hp hreq hslot harmed hother

/-- The transition is gone, its SWITCH aborted, and the layout shown is the one before. -/
abbrev Withdrawn (l : Link) (tag : Byte) (quiet : Bool) (p : Pending) (s t : State) : Prop :=
  EndedWith (s.port l) (t.port l)
      (if quiet = true then [] else [{ tag := tag, code := 0x20, status := .aborted, results := .epoch p.epoch }])
    ∧ t.engine.pending = none ∧ t.engine.active = s.engine.active ∧ t.engine.activeEpoch = s.engine.activeEpoch

/-- An AT_FRAME abort that is taken first withdraws the transition. -/
theorem frameStart_withdraws_first (hfirst : order.get l = true) : Withdrawn l tag quiet p s (frameStart order s) := by
  have hwork := scanned_sameWork s
  have hp' : (scanFrame (finishFrame s)).engine.pending = some p := hwork.2.1.trans hp
  have hslot' := (hwork.slot l).trans hslot
  have hended := withdrawn_switch (quiet := quiet) hp' hreq hslot'
  have hengine := withdraw_pending (quiet := quiet) hp'
  obtain ⟨hport, hafter⟩ := frame_afterWithdrawal (l := l) (w := withdraw .aborted quiet (scanFrame (finishFrame s)))
    (by rw [hengine]; rfl) hended.1
  rw [frameStart_eq, afterAborts_withdraws hp' hreq hslot' ((hwork.armed l).trans harmed)
    ((hwork.armed l.other).trans hother) hfirst, Withdrawn, hport, hafter]
  exact ⟨hended.countQuiet.of_responses (hwork.responses l), (congrArg Engine.pending hengine).trans rfl,
    (congrArg Engine.active hengine).trans hwork.2.2.1, (congrArg Engine.activeEpoch hengine).trans hwork.2.2.2⟩

/-- Taken last, it withdraws the transition for which no switch is due. -/
theorem frameStart_withdraws_last (hlast : order.get l = false) (ha : p.armed = false) (hw : 1 < p.window) :
    Withdrawn l tag quiet p s (frameStart order s) := by
  have hwork := scanned_sameWork s
  have hp' : (storeFrame (scanFrame (finishFrame s))).engine.pending = some p := hwork.2.1.trans hp
  rw [frameStart_eq, afterAborts_last hother hlast, engineFrame_of_waiting hp' ha hw]
  obtain ⟨hended, hengine⟩ := portFrames_withdraws (l := l) (s := { storeFrame (scanFrame (finishFrame s)) with engine :=
      { (storeFrame (scanFrame (finishFrame s))).engine with pending := some { p with window := p.window - 1 } } })
    (tag := tag) (quiet := quiet) rfl hreq ((hwork.slot l).trans hslot) ((hwork.armed l).trans harmed)
    ((hwork.armed l.other).trans hother)
  rw [Withdrawn, hengine]
  exact ⟨hended.of_responses (hwork.responses l), rfl, hwork.2.2.1, hwork.2.2.2⟩

/-- Where a switch is due and the abort is not taken first, the switch is made and the SWITCH answered. -/
theorem frameStart_answers_switch (hlast : order.get l = false) (hdue : p.armed = true ∨ p.window ≤ 1) :
    EndedWith (s.port l) ((frameStart order s).port l)
        [{ tag := tag, code := 0x20, status := .ok, results := .switched p.epoch p.slot (s.scan.frame + 1) }]
      ∧ (frameStart order s).engine.active.slot = some p.slot ∧ (frameStart order s).engine.activeEpoch = p.epoch
      ∧ (frameStart order s).engine.pending = none := by
  refine ⟨?_, frameStart_switches ?_ hdue⟩
  swap
  · rw [beforeEngine, afterAborts_last hother hlast]
    exact (scanned_sameWork s).2.1.trans hp
  have hwork := finishFrame_sameWork s
  have hp' := hwork.2.1.trans hp
  rw [frameStart_finishFrame, frameStart_of_blanking (finishFrame_row s) fun m hm => ?_,
    engineFrame_of_due (atEngineFrame_pending hp') hdue,
    switchFrame_answers hp' ((hwork.slot l).trans hslot) (.inl hreq), finishFrame_frame]
  · obtain ⟨-, -, -, -, -, -, -, hresponses⟩ := handedAll_fields (offNotices (finishFrame s) ++ .active p.epoch p.slot
      p.generation ((finishFrame s).scan.frame + 1) (lateAt p) :: cancelsFor l .switch p.epoch
        (carriedTags (finishFrame s).engine) (finishFrame s).touch.contacts) (countQuiet ((finishFrame s).port l))
    exact ⟨rfl, rfl, congrArg (· ++ _) (hresponses.trans ((countQuiet_responses _).trans (hwork.responses l)))⟩
  · obtain rfl | rfl := Link.eq_or_other l m
    · exact absurd (hlast.symm.trans hm) nofun
    · exact .inr (not_armed_of_none ((hwork.armed _).trans hother))

end

/-! ## A WAIT whose abort is armed for the frame start (R153, R155) -/

section
variable {l : Link} {s : State} {q : Running} {order : LinkSet} (hslot : (s.port l).slot = some q)
  (hq : ∀ tag, q ≠ .switch tag) (hreq : ∀ p, s.engine.pending = some p → p.requester ≠ some l)
include hslot hq hreq

omit hq in
/-- With no abort armed a WAIT for FRAME counts. -/
theorem frameStart_counts {tag : Byte} {n : Nat} (heq : q = .waitFrame tag n) (harmed : (s.port l).armed = none)
    (hn : 1 < n) : ((frameStart order s).port l).slot = some (.waitFrame tag (n - 1))
      ∧ ((frameStart order s).port l).responses = (s.port l).responses := by
  subst heq
  have hsame : (s.port l).core.abortedAt .atFrame = (s.port l).core :=
    Port.abortedAt_other _ (not_armed_of_none (x := (s.port l).core) harmed)
  have hcore := frameStart_waits (order := order) (waits_of_running hslot nofun hreq) (by
    rw [hsame, ite_self]
    exact .inl fun tag' htag => absurd (hslot.symm.trans htag) nofun)
  rw [hsame, ite_self] at hcore
  obtain ⟨hcounted, hresponses⟩ := frameDone_counts (p := (s.port l).core) (s.scan.frame + 1) hslot hn harmed
  rw [← hcore] at hcounted hresponses
  exact ⟨hcounted, hresponses⟩

omit hq in
/-- A WAIT for FRAME whose count reaches 0 is answered OK when its completion is taken first. -/
theorem frameStart_completes {tag : Byte} {n : Nat} (heq : q = .waitFrame tag n) (hn : n ≤ 1)
    (hlast : order.get l = false) : EndedWith (s.port l) ((frameStart order s).port l)
      [{ tag := tag, code := 0x61, status := .ok, results := .frame (s.scan.frame + 1) }] := by
  subst heq
  have hcore := frameStart_waits (order := order) (waits_of_running hslot nofun hreq) (by
    rw [hlast, if_neg Bool.false_ne_true]
    exact .inl fun tag' htag => absurd (hslot.symm.trans htag) nofun)
  rw [hlast, if_neg Bool.false_ne_true] at hcore
  refine EndedWith.of_core ?_
  rw [hcore]
  exact frameDone_completes (p := (s.port l).core) _ hslot hn

/-- The switch that is due is made, the abort of a WAIT for EPOCH taken first or last. -/
theorem frameStart_answers_epoch {tag : Byte} {p : Pending} (heq : q = .waitEpoch tag) (hp : s.engine.pending = some p)
    (hdue : p.armed = true ∨ p.window ≤ 1) (hnot : NotArmedAtFrame (s.port l.other)) :
    (frameStart order s).engine.active.slot = some p.slot ∧ (frameStart order s).engine.activeEpoch = p.epoch
      ∧ (order.get l = false → EndedWith (s.port l) ((frameStart order s).port l)
        [{ tag := tag, code := 0x61, status := .ok, results := .switched p.epoch p.slot (s.scan.frame + 1) }]) := by
  subst heq
  have hpending : (beforeEngine order s).engine.pending = some p := by
    rw [beforeEngine_kept fun m => ?_, hp]
    obtain rfl | rfl := Link.eq_or_other l m
    · exact .inr fun tag' htag => absurd (hslot.symm.trans htag) nofun
    · exact .inl hnot
  obtain ⟨hactive, hepoch, -⟩ := frameStart_switches hpending hdue
  refine ⟨hactive, hepoch, fun hlast => ?_⟩
  have hbefore := beforeEngine_waits (order := order) (waits_of_running hslot hq hreq)
  rw [hlast, if_neg Bool.false_ne_true] at hbefore
  have hports := (hbefore.makeSwitch hpending (lateAt p)).portFrames.1
  rw [← engineFrame_of_due hpending hdue] at hports
  refine EndedWith.of_core ?_
  rw [show frameStart order s = portFrames (engineFrame (beforeEngine order s)) from rfl, hports,
    Port.epochWaited_of_wait (p := (s.port l).core) hslot, beforeEngine_frame]
  exact (endedWith_ended (p := (s.port l).core) (.waitEpoch tag) .ok
    (.switched p.epoch p.slot (s.scan.frame + 1))).frameDone _

/-- In every other case the abort ends the WAIT. -/
theorem frameStart_aborts {quiet : Bool} (harmed : (s.port l).armed = some { condition := .atFrame, quiet := quiet })
    (hcount : ∀ tag n, q = .waitFrame tag n → 1 < n ∨ order.get l = true)
    (hepoch : ∀ tag, q = .waitEpoch tag →
      order.get l = true ∨ ∀ p, s.engine.pending = some p → p.armed = false ∧ 1 < p.window) :
    EndedWith (s.port l) ((frameStart order s).port l) (abortResponses q.tag quiet) := by
  have hcoreSlot : (s.port l).core.slot = some q := hslot
  have haborted := Port.abortedAt_acts (p := (s.port l).core) .atFrame hcoreSlot harmed
  have hw := waits_of_running hslot hq hreq
  refine EndedWith.of_core ?_
  cases hfirst : order.get l with
  | true =>
    have hcore := frameStart_waits (order := order) hw (by
      rw [hfirst, if_pos rfl, haborted, Port.aborted_slot]
      exact .inl nofun)
    rw [hcore, hfirst, if_pos rfl, haborted]
    exact (endedWith_aborted hcoreSlot hq quiet).frameDone _
  | false =>
    have hcore := frameStart_waits (order := order) hw (by
      rw [hfirst, if_neg Bool.false_ne_true, hcoreSlot]
      by_cases hwait : ∃ tag, q = .waitEpoch tag
      · obtain ⟨tag, rfl⟩ := hwait
        have hnot := (hepoch tag rfl).resolve_left (by simp [hfirst])
        exact .inr fun p hp => hnot p ((beforeEngine_pending order s).elim (fun hsame => hsame.symm.trans hp)
          fun hnone => absurd (hnone.symm.trans hp) nofun)
      · exact .inl fun tag htag => hwait ⟨tag, Option.some.inj htag⟩)
    rw [hcore, hfirst, if_neg Bool.false_ne_true]
    exact frameDone_aborts _ hcoreSlot hq harmed fun tag n heq => (hcount tag n heq).resolve_right (by simp [hfirst])

end

/-- Settles O31: a WAIT by the core it leaves in its port, a SWITCH by the order of its abort and the switch. -/
theorem armedAbortActsAtFrameStart : Obligations.ArmedAbortActsAtFrameStart := by
  intro order s l h
  refine ⟨frameStart order s, by simp only [exec, execFrameStart, unlessHeld_running h], fun q hslot hq hreq => ?_,
    fun tag p quiet hp hreq hslot harmed hother => ?_⟩
  · intro endsWith
    refine ⟨fun tag n heq => frameStart_counts hslot hreq heq, fun quiet harmed => ⟨fun tag n heq =>
      frameStart_completes hslot hreq heq, frameStart_aborts hslot hq hreq harmed, fun tag p heq hp hdue hnot =>
      frameStart_answers_epoch hslot hq hreq heq hp hdue hnot⟩⟩
  · cases hfirst : order.get l with
    | true =>
      obtain ⟨⟨hgone, hdisarmed, hanswered⟩, hpending, hactive, hepoch⟩ :=
        frameStart_withdraws_first hp hreq hslot harmed hother hfirst
      exact ⟨hgone, hdisarmed, hpending, fun _ => ⟨hactive, hepoch, hanswered⟩, nofun⟩
    | false =>
      by_cases hdue : p.armed = true ∨ p.window ≤ 1
      · obtain ⟨⟨hgone, hdisarmed, hanswered⟩, hactive, hepoch, hpending⟩ :=
          frameStart_answers_switch hp hreq hslot harmed hother hfirst hdue
        refine ⟨hgone, hdisarmed, hpending, ?_, fun _ _ => ⟨hactive, hepoch, hanswered⟩⟩
        rintro (hno | ⟨ha, hw⟩)
        · exact absurd hno nofun
        · exact absurd hdue (by simp [ha, hw])
      · obtain ⟨ha, hw⟩ := not_or.mp hdue
        obtain ⟨⟨hgone, hdisarmed, hanswered⟩, hpending, hactive, hepoch⟩ :=
          frameStart_withdraws_last hp hreq hslot harmed hother hfirst (by simpa using ha) (Nat.not_le.mp hw)
        exact ⟨hgone, hdisarmed, hpending, fun _ => ⟨hactive, hepoch, hanswered⟩, fun _ hd => absurd hd hdue⟩

end Sys2Proof.Machine
end

section
/-! PROOFS. What a link writes into the region store (sections 4.3 to 4.5 and 7.3): frame marks, lines, and
REGION-CLEAR. -/

namespace Sys2Proof.Machine

/-! ## Discards and changes of one record -/

theorem countedOn_countOn (l : Link) (k : CounterName) (s : State) : CountedOn l k s (countOn l k 1 s) :=
  ⟨countOn_sameBut l k 1 s, countOn_port l k 1 s⟩

/-- A record changed by its key, change by change. -/
theorem updateRecord_engine_of {r : RuntimeRecord} {f g : RuntimeRecord → RuntimeRecord}
    (h : ∀ q, q.membership = r.membership → f q = g q) (s : State) : (updateRecord r f s).engine =
      { s.engine with records := s.engine.records.map (fun q => if sameRecord r q then g q else q) } := by
  have hmap : s.engine.records.map (fun q => if sameRecord r q then f q else q) =
      s.engine.records.map (fun q => if sameRecord r q then g q else q) := by
    refine List.map_congr_left fun q _ => ?_
    by_cases hsame : sameRecord r q = true
    · have hm : q.membership = r.membership := by
        have := hsame
        simp only [sameRecord, Bool.and_eq_true, beq_iff_eq] at this
        exact this.2.symm
      rw [if_pos hsame, if_pos hsame, h q hm]
    · rw [if_neg hsame, if_neg hsame]
  unfold updateRecord
  rw [hmap]

/-! ## BEGIN and END (R91 to R93, R96) -/

section
variable {l : Link} {region : Byte} {epoch : Word} {effect : RuntimeRecord → State → State} {s : State} {r : RuntimeRecord}

theorem markEffect_unresolved (h : resolve s.engine epoch region = none) :
    markEffect l region epoch effect s = countOn l .stale 1 s := by
  simp only [markEffect, h]

variable (h : resolve s.engine epoch region = some r)
include h

theorem markEffect_misdirected (howner : r.region.owner ≠ some l) :
    markEffect l region epoch effect s = countOn l .misdirected 1 s := by
  simp only [markEffect, h, if_pos howner]

theorem markEffect_notDouble (howner : r.region.owner = some l) (hc : r.region.content ≠ .double) :
    markEffect l region epoch effect s = countOn l .malformed 1 s := by
  have hdouble : isDouble r = false := decide_eq_false hc
  simp [markEffect, h, howner, hdouble]

theorem markEffect_runs (howner : r.region.owner = some l) (hc : r.region.content = .double) :
    markEffect l region epoch effect s = effect r s := by
  simp [markEffect, h, howner, isDouble_iff.mpr hc]

end

/-- A flip at once of a region of the pending layout alone leaves its gate (R74, R96). -/
theorem flipRecord_pending {q : RuntimeRecord} (h : q.membership = .pending) :
    flipRecord q = modBuffers flipBuffers q := if_pos h

/-- Settles O34: a mark by the record it resolves to, an END by the state of the back and the record's layout. -/
theorem frameMarksDriveBackState : Obligations.FrameMarksDriveBackState := by
  intro l region epoch s h
  have hresolve : resolve (arrive l s).engine epoch region = resolve s.engine epoch region := by rw [arrive_engine]
  refine ⟨markEffect l region epoch beginFrame (arrive l s), markEffect l region epoch (endChecked l) (arrive l s),
    congrArg _ (takePacket_running h _ _), congrArg _ (takePacket_running h _ _), fun hnone => ?_, fun r hr => ?_⟩
  · rw [markEffect_unresolved (hresolve.trans hnone), markEffect_unresolved (hresolve.trans hnone)]
    exact ⟨countedOn_countOn .., countedOn_countOn ..⟩
  have hr' := hresolve.trans hr
  refine ⟨fun howner => ?_, fun howner hc => ?_, fun howner hc b hb => ?_⟩
  · rw [markEffect_misdirected hr' howner, markEffect_misdirected hr' howner]
    exact ⟨countedOn_countOn .., countedOn_countOn ..⟩
  · rw [markEffect_notDouble hr' howner hc, markEffect_notDouble hr' howner hc]
    exact ⟨countedOn_countOn .., countedOn_countOn ..⟩
  have hstate : backStateOf r = b.backState := by simp [backStateOf, hb]
  rw [markEffect_runs hr' howner hc, markEffect_runs hr' howner hc]
  refine ⟨⟨updateRecord_sameBut _ _ _, ?_⟩, fun hnot => ?_, fun hwriting hm => ?_, fun hwriting hm => ?_⟩
  · rw [← arrive_engine s l]
    rfl
  · rw [endChecked, if_pos (hstate ▸ hnot)]
    exact countedOn_countOn ..
  · rw [endChecked, if_neg (by simpa [hstate] using hwriting), endFrame, if_neg hm]
    refine ⟨updateRecord_sameBut _ _ _, ?_⟩
    rw [← arrive_engine s l]
    rfl
  · rw [endChecked, if_neg (by simpa [hstate] using hwriting), endFrame, if_pos hm]
    refine ⟨updateRecord_sameBut _ _ _, ?_⟩
    rw [← arrive_engine s l]
    exact updateRecord_engine_of (fun q hq => flipRecord_pending (hq.trans hm)) _

theorem openGate_eq (q : RuntimeRecord) :
    openGate q = { q with gate := if q.membership = .pending then q.gate else .opened } := by
  unfold openGate
  by_cases hm : q.membership = .pending
  · rw [if_pos hm, if_pos hm]
  · rw [if_neg hm, if_neg hm]

/-! ## A line for a STORED region (R88 to R90) -/

/-- The pixels that a line leaves in a SINGLE buffer (R89). -/
theorem pixelAt_writeSingle (m : List PixelCell) (g : Region) (b : Buffer) (row offset a : Nat) (px : List Colour) :
    pixelAt (writeSingle m g b row offset px) a =
      if rowAddress b g.width row + offset ≤ a ∧ a < rowAddress b g.width row + offset + px.length then
        px.getD (a - (rowAddress b g.width row + offset)) Config.unwrittenPixel
      else if rowValid b row = false ∧ rowAddress b g.width row ≤ a ∧ a < rowAddress b g.width row + g.width then g.fill
      else pixelAt m a := by
  simp only [writeSingle, pixelAt_writePixels]
  by_cases hin : rowAddress b g.width row + offset ≤ a ∧ a < rowAddress b g.width row + offset + px.length
  · rw [if_pos hin, if_pos hin]
  rw [if_neg hin, if_neg hin]
  cases hv : rowValid b row with
  | true => simp
  | false =>
    simp only [Bool.false_eq_true, if_false, pixelAt_writePixels, List.length_replicate, true_and]
    by_cases hrow : rowAddress b g.width row ≤ a ∧ a < rowAddress b g.width row + g.width
    · have hlt : a - rowAddress b g.width row < g.width := by omega
      simp [hrow, hlt]
    · simp [hrow]

section
variable {l : Link} {p : Line} {r : RuntimeRecord} {s : State}

theorem storeLine_outside (h : ¬ (p.row.toNat < r.region.height ∧ 1 ≤ p.pixels.length
      ∧ p.offset.toNat + p.pixels.length ≤ r.region.width)) : storeLine l r p s = countOn l .malformed 1 s := by
  simp only [storeLine, if_pos h]

variable (hin : p.row.toNat < r.region.height ∧ 1 ≤ p.pixels.length
    ∧ p.offset.toNat + p.pixels.length ≤ r.region.width) {b : Buffers} (hb : r.buffers = some b)
include hin hb

theorem storeLine_single (hback : b.back = none) : storeLine l r p s =
    updateRecord r (fun q => openGate (modBuffers (fun b => { b with front := markValid p.row.toNat b.front }) q))
      { s with store := writeSingle s.store r.region b.front p.row.toNat p.offset.toNat p.pixels } := by
  simp only [storeLine, if_neg (not_not.mpr hin), hb, hback]

variable {k : Buffer} (hback : b.back = some k)
include hback

theorem storeLine_partRow (h : ¬ (p.offset.toNat = 0 ∧ p.pixels.length = r.region.width)) :
    storeLine l r p s = countOn l .malformed 1 s := by
  simp only [storeLine, if_neg (not_not.mpr hin), hb, hback, if_pos h]

theorem storeLine_notWriting (hoffset : p.offset.toNat = 0) (hn : p.pixels.length = r.region.width)
    (h : b.backState ≠ .writing) : storeLine l r p s = countOn l .malformed 1 s := by
  simp only [storeLine, if_neg (not_not.mpr hin), hb, hback, if_neg (not_not.mpr (And.intro hoffset hn)), if_pos h]

theorem storeLine_double (hoffset : p.offset.toNat = 0) (hn : p.pixels.length = r.region.width)
    (h : b.backState = .writing) : storeLine l r p s =
    updateRecord r (modBuffers (fun b => { b with back := b.back.map (markValid p.row.toNat) }))
      { s with store := writePixels s.store (rowAddress k r.region.width p.row.toNat) p.pixels } := by
  simp only [storeLine, if_neg (not_not.mpr hin), hb, hback, if_neg (not_not.mpr (And.intro hoffset hn)),
    if_neg (not_not.mpr h)]

end

theorem lineEffect_stored {l : Link} {p : Line} {s : State} {r : RuntimeRecord}
    (h : resolve s.engine p.epoch p.tag = some r) (hc : r.region.content ≠ .streamed) (howner : r.region.owner = some l) :
    lineEffect l p s = storeLine l r p s := by
  simp only [lineEffect, h, if_neg hc, howner, ne_eq, not_true_eq_false, if_false]

/-- Settles O35: the checks of a stored line in their order, and the pixels that the write of each buffering leaves. -/
theorem storedLineWritesItsRow : Obligations.StoredLineWritesItsRow := by
  intro l p s h row offset n
  have hresolve : resolve (arrive l s).engine p.epoch p.tag = resolve s.engine p.epoch p.tag := by rw [arrive_engine]
  refine ⟨lineEffect l p (arrive l s), congrArg _ (takePacket_running h _ _), fun hnone => ?_, fun r hr hc => ?_⟩
  · rw [lineEffect, hresolve, hnone]
    exact countedOn_countOn ..
  have hr' := hresolve.trans hr
  refine ⟨fun howner => ?_, fun howner hout => ?_, fun howner hrow hone hfit b hb => ?_⟩
  · simp only [lineEffect, hr', if_neg hc, if_pos howner]
    exact countedOn_countOn ..
  · rw [lineEffect_stored hr' hc howner, storeLine_outside hout]
    exact countedOn_countOn ..
  have hin := And.intro hrow (And.intro hone hfit)
  rw [lineEffect_stored hr' hc howner]
  refine ⟨fun hback => ?_, fun k hback => ⟨fun hpart => ?_, fun ho hn hstate => ?_, fun ho hn hstate => ?_⟩⟩
  · intro base
    rw [storeLine_single hin hb hback]
    refine ⟨((withStore_sameBut _ _).mono (by simp)).trans ((updateRecord_sameBut _ _ _).mono (by simp)), ?_, fun a => ?_⟩
    · rw [updateRecord_engine_of (g := fun q => { q with
        gate := if q.membership = .pending then q.gate else .opened
        buffers := q.buffers.map (fun x => { x with front := { x.front with valid := x.front.valid.set row true } }) })]
      · rw [← arrive_engine s l]
      · exact fun q _ => openGate_eq _
    · rw [updateRecord_store, pixelAt_writeSingle, arrive_store]
      rfl
  · rw [storeLine_partRow hin hb hback hpart]
    exact countedOn_countOn ..
  · rw [storeLine_notWriting hin hb hback ho hn hstate]
    exact countedOn_countOn ..
  · intro base
    rw [storeLine_double hin hb hback ho hn hstate]
    refine ⟨((withStore_sameBut _ _).mono (by simp)).trans ((updateRecord_sameBut _ _ _).mono (by simp)), ?_, fun a => ?_⟩
    · rw [← arrive_engine s l]
      rfl
    · rw [updateRecord_store, pixelAt_writePixels, arrive_store, show p.pixels.length = r.region.width from hn]
      rfl

/-! ## A line for a STREAMED region (R149, R150) -/

/-- Settles O36: the arrival checks in their order, and the queue with its HOLD. -/
theorem streamedLineJoinsQueue : Obligations.StreamedLineJoinsQueue := by
  intro l p s r h hr hc depth
  have hr' : resolve (arrive l s).engine p.epoch p.tag = some r := by rw [arrive_engine, hr]
  have hline : lineEffect l p (arrive l s) = streamLine l r p (arrive l s) := by
    simp only [lineEffect, hr', if_pos hc]
  have hdepth : ((arrive l s).port l).stream.length = depth := by rw [arrive_port_stream]
  refine ⟨lineEffect l p (arrive l s), congrArg _ (takePacket_running h _ _), fun howner => ?_, fun howner hout => ?_,
    fun howner hrow hone hfit => ⟨fun hfull => ?_, fun hroom => ?_⟩⟩
  · rw [hline, streamLine, if_pos howner]
    exact countedOn_countOn ..
  · rw [hline, streamLine, if_neg (not_not.mpr howner), if_pos hout]
    exact countedOn_countOn ..
  · rw [hline, streamLine, if_neg (not_not.mpr howner), if_neg (not_not.mpr ⟨hrow, hone, hfit⟩),
      if_pos (hdepth ▸ hfull)]
    exact countedOn_countOn ..
  · rw [hline, streamLine, if_neg (not_not.mpr howner), if_neg (not_not.mpr ⟨hrow, hone, hfit⟩),
      if_neg (hdepth ▸ Nat.not_le.mpr hroom)]
    refine ⟨(arrive_sameBut l s).trans (modPort_sameBut l _ _), ?_⟩
    rw [port_modPort, Port.setStream, arrive_port_stream, arrive_port_hold, List.length_append]
    rfl

/-! ## REGION-CLEAR (R98 to R100) -/

theorem whichOfByte_of_out {b : Byte} (h : b.toNat = 0 ∨ 3 < b.toNat) : whichOfByte b = none := by
  unfold whichOfByte
  rw [if_neg (by rintro rfl; simp at h), if_neg (by rintro rfl; simp at h), if_neg (by rintro rfl; simp at h)]

theorem whichOfByte_of_eq {b : Byte} {w : Which}
    (h : (b = 1 ∧ w = .front) ∨ (b = 2 ∧ w = .back) ∨ (b = 3 ∧ w = .both)) : whichOfByte b = some w := by
  obtain ⟨rfl, rfl⟩ | ⟨rfl, rfl⟩ | ⟨rfl, rfl⟩ := h <;> rfl

theorem holdsNamed_iff {w : Which} {r : RuntimeRecord} : holdsNamed w r = true ↔
    r.region.content = .double ∨ (r.region.content = .single ∧ w ≠ .back) := by
  unfold holdsNamed
  cases hc : r.region.content <;> simp

theorem clearsRecord_iff {l : Link} {t : Nat} {w : Which} {r : RuntimeRecord} : clearsRecord l t w r = true ↔
    (r.region.tag = t ∧ r.region.owner = some l)
      ∧ (r.region.content = .double ∨ (r.region.content = .single ∧ w ≠ .back)) := by
  rw [clearsRecord, Bool.and_eq_true, decide_eq_true_iff, holdsNamed_iff]

/-- The effect of a REGION-CLEAR on the buffers of a record (R100). -/
def clearBuffers (w : Which) (m : Membership) (b : Buffers) : Buffers :=
  match w with
  | .front => clearFront m b
  | .back => clearBack b
  | .both => clearFront m (clearBack b)

theorem clearRecord_eq (w : Which) (r : RuntimeRecord) :
    clearRecord w r = modBuffers (clearBuffers w r.membership) r := by
  cases w with
  | front => exact clearRecord_front r
  | back => exact clearRecord_back r
  | both => exact clearRecord_both r

section
variable (m : Membership) (b : Buffers)

theorem clearBack_rest : (clearBack b).front = b.front ∧ (clearBack b).clearDue = b.clearDue
    ∧ (clearBack b).flipped = b.flipped ∧ ((clearBack b).back = none ↔ b.back = none) :=
  ⟨rfl, rfl, rfl, by simp [clearBack]⟩

theorem clearFront_rest : (clearFront m b).back = b.back ∧ (clearFront m b).backState = b.backState
    ∧ (clearFront m b).flipped = b.flipped := by
  unfold clearFront
  split <;> exact ⟨rfl, rfl, rfl⟩

variable {m b}

theorem clearBack_none (h : b.back = none) : clearBack b = b := by
  cases b
  simp_all [clearBack]

theorem clearBack_some {k : Buffer} (h : b.back = some k) :
    clearBack b = { b with back := some (clearRows k), backState := .idle } := by
  simp [clearBack, h]

theorem clearFront_now (h : b.back = none ∨ m = .pending) :
    clearFront m b = { b with front := clearRows b.front } := if_pos (by simpa using h)

theorem clearFront_due (hback : b.back ≠ none) (hm : m ≠ .pending) :
    clearFront m b = { b with clearDue := some b.front.label } := if_neg (by simp [hback, hm])

end

theorem clearBuffers_flipped (w : Which) (m : Membership) (b : Buffers) : (clearBuffers w m b).flipped = b.flipped := by
  cases w with
  | front => exact (clearFront_rest m b).2.2
  | back => rfl
  | both => exact (clearFront_rest m _).2.2

/-- The front of a record acted on: cleared at once, or due (R100). -/
theorem clearBuffers_front {w : Which} (hw : w ≠ .back) (m : Membership) (b : Buffers) :
    ((b.back = none ∨ m = .pending) → (clearBuffers w m b).front = clearRows b.front
        ∧ (clearBuffers w m b).clearDue = b.clearDue)
      ∧ (b.back ≠ none → m ≠ .pending → (clearBuffers w m b).front = b.front
        ∧ (clearBuffers w m b).clearDue = some b.front.label) := by
  obtain ⟨hfront, hdue, -, hnone⟩ := clearBack_rest b
  cases w with
  | front =>
    refine ⟨fun hnow => ?_, fun hback hm => ?_⟩
    · rw [clearBuffers, clearFront_now hnow]
      exact ⟨rfl, rfl⟩
    · rw [clearBuffers, clearFront_due hback hm]
      exact ⟨rfl, rfl⟩
  | back => exact absurd rfl hw
  | both =>
    refine ⟨fun hnow => ?_, fun hback hm => ?_⟩
    · rw [clearBuffers, clearFront_now (hnow.imp_left hnone.mpr)]
      exact ⟨congrArg clearRows hfront, hdue⟩
    · rw [clearBuffers, clearFront_due (mt hnone.mp hback) hm]
      exact ⟨hfront, by rw [hfront]⟩

/-- The back of a record acted on, if it is named (R99). -/
theorem clearBuffers_back (w : Which) (m : Membership) (b : Buffers) :
    ((w = .front ∨ b.back = none) → (clearBuffers w m b).back = b.back ∧ (clearBuffers w m b).backState = b.backState)
      ∧ ∀ k, w ≠ .front → b.back = some k →
        (clearBuffers w m b).back = some (clearRows k) ∧ (clearBuffers w m b).backState = .idle := by
  obtain ⟨hback, hstate, -⟩ := clearFront_rest m b
  obtain ⟨hback', hstate', -⟩ := clearFront_rest m (clearBack b)
  cases w with
  | front => exact ⟨fun _ => ⟨hback, hstate⟩, fun k hw => absurd rfl hw⟩
  | back =>
    refine ⟨fun hnone => ?_, fun k _ hk => ?_⟩
    · rw [clearBuffers, clearBack_none (hnone.resolve_left nofun)]
      exact ⟨rfl, rfl⟩
    · rw [clearBuffers, clearBack_some hk]
      exact ⟨rfl, rfl⟩
  | both =>
    refine ⟨fun hnone => ?_, fun k _ hk => ?_⟩
    · rw [clearBuffers, hback', hstate', clearBack_none (hnone.resolve_left nofun)]
      exact ⟨rfl, rfl⟩
    · rw [clearBuffers, hback', hstate', clearBack_some hk]
      exact ⟨rfl, rfl⟩

section
variable {l : Link} {tag region which : Byte} {s : State} {t : Nat} {w : Which}

theorem regionClearEffect_badParam (h : tagOfByte region = none ∨ whichOfByte which = none) :
    regionClearEffect l tag region which s = answer l tag .regionClear .badParam .none s := by
  unfold regionClearEffect
  split
  · next ht hw => exact absurd h (by simp [ht, hw])
  · rfl

variable (ht : tagOfByte region = some t) (hw : whichOfByte which = some w)
include ht hw

theorem regionClearEffect_noRegion (h : recordsNamed t s.engine = []) :
    regionClearEffect l tag region which s = answer l tag .regionClear .noRegion .none s := by
  simp only [regionClearEffect, ht, hw, h, List.isEmpty_nil, if_true]

theorem regionClearEffect_notOwner (h : recordsNamed t s.engine ≠ [])
    (howned : ∀ r ∈ recordsNamed t s.engine, r.region.owner ≠ some l) :
    regionClearEffect l tag region which s = answer l tag .regionClear .notOwner .none s := by
  simp only [regionClearEffect, ht, hw]
  rw [if_neg (by simpa using h), if_pos (by simpa using howned)]

theorem regionClearEffect_nothingNamed {r : RuntimeRecord} (hr : r ∈ recordsNamed t s.engine)
    (howner : r.region.owner = some l) (h : (recordsNamed t s.engine).filter (clearsRecord l t w) = []) :
    regionClearEffect l tag region which s = answer l tag .regionClear .badParam .none s := by
  simp only [regionClearEffect, ht, hw]
  rw [if_neg (by simpa using List.ne_nil_of_mem hr), if_neg (by simpa using ⟨r, hr, howner⟩), if_pos (by simp [h])]

theorem regionClearEffect_clears {r : RuntimeRecord} (hr : r ∈ recordsNamed t s.engine)
    (howner : r.region.owner = some l) (h : (recordsNamed t s.engine).filter (clearsRecord l t w) ≠ []) :
    regionClearEffect l tag region which s = answer l tag .regionClear .ok
      (.cleared (((recordsNamed t s.engine).filter (clearsRecord l t w)).map (clearEntry w))) (clearRegions l t w s) := by
  simp only [regionClearEffect, ht, hw]
  rw [if_neg (by simpa using List.ne_nil_of_mem hr), if_neg (by simpa using ⟨r, hr, howner⟩), if_neg (by simpa using h)]

end

/-- The records acted on, as the rule names them. -/
theorem acted_eq (l : Link) (t : Nat) (w : Which) (e : Engine) :
    ((e.records.filter (fun r => r.region.tag = t)).filter (fun r => r.region.owner = some l)).filter
        (fun r => r.region.content = .double ∨ (r.region.content = .single ∧ w ≠ .back))
      = (recordsNamed t e).filter (clearsRecord l t w) := by
  rw [List.filter_filter, recordsNamed]
  refine List.filter_congr fun r hr => ?_
  have htag : r.region.tag = t := by simpa using (List.mem_filter.mp hr).2
  rw [Bool.eq_iff_iff, clearsRecord_iff]
  simp [htag, and_comm]

/-- Settles O39: the checks in their order, and each buffer named by its region's layout. -/
theorem regionClearActsOnOwnedRecords : Obligations.RegionClearActsOnOwnedRecords := by
  intro l tag region which s h named owned
  refine ⟨regionClearEffect l tag region which (arrive l s), slotCommand_runs h _ _ _, fun hout => ?_,
    fun w hfrom hto hw => ?_⟩
  · rw [regionClearEffect_badParam]
    · exact refusedWith_answer ..
    · obtain h0 | h15 | hwhich := hout
      · exact .inl (tagOfByte_of_out (.inl h0))
      · exact .inl (tagOfByte_of_out (.inr h15))
      · exact .inr (whichOfByte_of_out hwhich)
  intro acted
  have ht := tagOfByte_of_range hfrom hto
  have hw' := whichOfByte_of_eq hw
  have hnamed : recordsNamed region.toNat (arrive l s).engine = named := by rw [arrive_engine]; rfl
  have hacted : (recordsNamed region.toNat (arrive l s).engine).filter (clearsRecord l region.toNat w) = acted := by
    rw [arrive_engine]
    exact (acted_eq l region.toNat w s.engine).symm
  refine ⟨fun hnone => ?_, fun hsome hother => ?_, fun howned hnone => ?_, fun hsome => ?_⟩
  · rw [regionClearEffect_noRegion ht hw' (hnamed.trans hnone)]
    exact refusedWith_answer ..
  · rw [regionClearEffect_notOwner ht hw' (hnamed ▸ hsome) fun r hr howner => ?_]
    · exact refusedWith_answer ..
    · have : r ∈ owned := List.mem_filter.mpr ⟨hnamed ▸ hr, by simpa using howner⟩
      rw [hother] at this
      exact absurd this List.not_mem_nil
  · obtain ⟨r, hr⟩ := List.exists_mem_of_ne_nil _ howned
    obtain ⟨hr, howner⟩ := List.mem_filter.mp hr
    rw [regionClearEffect_nothingNamed ht hw' (hnamed.symm ▸ hr) (by simpa using howner) (hacted.trans hnone)]
    exact refusedWith_answer ..
  · obtain ⟨r, hr⟩ := List.exists_mem_of_ne_nil _ hsome
    obtain ⟨hr, howner⟩ := List.mem_filter.mp (List.mem_filter.mp hr).1
    rw [regionClearEffect_clears ht hw' (hnamed.symm ▸ hr) (by simpa using howner) (hacted.symm ▸ hsome), hacted]
    have hwrite : SameBut [.engine] (arrive l s) (clearRegions l region.toNat w (arrive l s)) := withEngine_sameBut _ _
    obtain ⟨hframe, hanswer⟩ := answer_withWrite (l := l) hwrite (by simp) tag .regionClear .ok
      (.cleared (acted.map (clearEntry w)))
    have hentries : acted.map (clearEntry w) = acted.map (fun r =>
        { membership := r.membership
          front := if w = .back then none else r.buffers.map (fun b =>
            (b.front.label, decide (b.back ≠ none ∧ r.membership ≠ .pending)))
          back := if w = .front then none else r.buffers.bind (fun b => b.back.map (·.label)) }) := by
      refine List.map_congr_left fun r _ => ?_
      have hdue (b : Buffers) : (b.back.isSome && decide (r.membership ≠ .pending)) =
          decide (b.back ≠ none ∧ r.membership ≠ .pending) := by
        rw [Bool.eq_iff_iff]
        simp [Option.isSome_iff_ne_none]
      simp only [clearEntry, hdue]
    rw [hentries] at hframe hanswer ⊢
    refine ⟨hframe, hanswer, fun r => if clearsRecord l region.toNat w r then clearRecord w r else r, ?_,
      fun r hr hout => ?_, fun r hr b hb => ?_⟩
    · rw [(answer_sameBut l tag .regionClear .ok _ _).engine (by simp)]
      unfold clearRegions
      rw [arrive_engine]
    · refine if_neg fun hclears => hout ?_
      rw [← hacted]
      obtain ⟨⟨htag, -⟩, -⟩ := clearsRecord_iff.mp hclears
      exact List.mem_filter.mpr ⟨hnamed.symm ▸ List.mem_filter.mpr ⟨hr, by simpa using htag⟩, hclears⟩
    · rw [← hacted] at hr
      have hfront (hw : w ≠ .back) := clearBuffers_front hw r.membership b
      obtain ⟨hkept, hcleared⟩ := clearBuffers_back w r.membership b
      refine ⟨clearBuffers w r.membership b, ?_, clearBuffers_flipped w _ b, ?_, fun hw => (hfront hw).1,
        fun hw => (hfront hw).2, hkept, hcleared⟩
      · refine (if_pos (List.mem_filter.mp hr).2).trans ?_
        rw [clearRecord_eq, modBuffers, hb]
        rfl
      · rintro rfl
        exact ⟨rfl, rfl⟩

end Sys2Proof.Machine
end

section
/-! PROOFS. The panel scan (sections 5.2 and 5.3): a streamed segment, a row and its segments, and every pixel sent. -/

namespace Sys2Proof.Machine

/-! ## A STREAMED segment (R113 to R115, R150) -/

/-- A port once the examinations at a position have changed its queue. -/
def Port.examined (x : Examined) (p : Port) : Port :=
  Port.count .stale x.discarded { p with stream := x.queue, hold := holdAfter x.queue.length p.hold }

theorem examineOn_port_eq (l : Link) (row col : Nat) (s : State) : (examineOn l row col s).1.port l =
    (s.port l).examined (examine s.engine s.scan.frame l row col (s.port l).stream) := examineOn_port l row col s

section
variable {l : Link} {row : Nat} {r : RuntimeRecord} {s : State}

theorem scanStreamed_consumed {p : Line}
    (h : (examine s.engine s.scan.frame l row r.region.col0 (s.port l).stream).consumed = some p) :
    scanStreamed l row r s = (updateRecord r openGate (examineOn l row r.region.col0 s).1, linePixels r.region p) := by
  have hexamined : examineOn l row r.region.col0 s = ((examineOn l row r.region.col0 s).1, some p) := Prod.ext rfl h
  unfold scanStreamed
  rw [hexamined]

theorem scanStreamed_waiting
    (h : (examine s.engine s.scan.frame l row r.region.col0 (s.port l).stream).consumed = none) :
    scanStreamed l row r s =
      (countLate l r (examineOn l row r.region.col0 s).1, List.replicate r.region.width r.region.fill) := by
  have hexamined : examineOn l row r.region.col0 s = ((examineOn l row r.region.col0 s).1, none) := Prod.ext rfl h
  unfold scanStreamed
  rw [hexamined]

end

theorem linePixels_length {g : Region} {p : Line} (h : p.offset.toNat + p.pixels.length ≤ g.width) :
    (linePixels g p).length = g.width := by
  simp [linePixels]
  omega

/-- The fill colour stands on either side of the line's pixels (R114). -/
theorem linePixels_getElem {g : Region} {p : Line} (h : p.offset.toNat + p.pixels.length ≤ g.width) {c : Nat}
    (hc : c < g.width) : (linePixels g p)[c]? = some
      (if p.offset.toNat ≤ c ∧ c < p.offset.toNat + p.pixels.length then p.pixels.getD (c - p.offset.toNat) g.fill
        else g.fill) := by
  unfold linePixels
  by_cases hleft : c < p.offset.toNat
  · rw [List.append_assoc, List.getElem?_append_left (by simpa using hleft), List.getElem?_replicate, if_pos hleft,
      if_neg (by omega)]
  · by_cases hin : c < p.offset.toNat + p.pixels.length
    · have hlt : c - p.offset.toNat < p.pixels.length := by omega
      rw [List.append_assoc, List.getElem?_append_right (by simpa using hleft), List.length_replicate,
        List.getElem?_append_left hlt, if_pos ⟨Nat.not_lt.mp hleft, hin⟩, List.getD_eq_getElem _ _ hlt,
        List.getElem?_eq_getElem hlt]
    · rw [List.getElem?_append_right (by simp; omega), if_neg (by omega), List.getElem?_replicate,
        if_pos (by simp; omega)]

/-- Settles O44: a consumed line opens the gate and is shown; without one the segment is filled and LATE may count. -/
theorem streamedSegmentShowsHeadLine : Obligations.StreamedSegmentShowsHeadLine := by
  intro l row r s x port t px
  have hport : (examineOn l row r.region.col0 s).1.port l = port := examineOn_port_eq l row r.region.col0 s
  refine ⟨scanStreamed_sameBut l row r s, fun p hp => ?_, fun hnone => ?_⟩
  · have hrun : scanStreamed l row r s = _ := scanStreamed_consumed hp
    have ht : t = updateRecord r openGate (examineOn l row r.region.col0 s).1 := congrArg Prod.fst hrun
    have hpx : px = linePixels r.region p := congrArg Prod.snd hrun
    refine ⟨?_, ?_, fun hfit => ?_⟩
    · rw [ht, updateRecord_port, hport]
    · rw [ht, updateRecord_engine_of fun q _ => openGate_eq q]
      rfl
    · rw [hpx]
      exact ⟨linePixels_length hfit, fun c hc => linePixels_getElem hfit hc⟩
  · have hrun : scanStreamed l row r s = _ := scanStreamed_waiting hnone
    have ht : t = countLate l r (examineOn l row r.region.col0 s).1 := congrArg Prod.fst hrun
    have hlate : (r.gate = .opened ∧ ((examineOn l row r.region.col0 s).1.port l).state = .online
        ∧ (examineOn l row r.region.col0 s).1.scan.latch = .clear)
          ↔ (r.gate = .opened ∧ (s.port l).state = .online ∧ s.scan.latch = .clear) := by
      rw [hport]
      rfl
    refine ⟨?_, congrArg Prod.snd hrun, fun hcounts => ?_, fun hnot => ?_⟩
    · rw [ht, countLate_engine, examineOn_engine]
    · rw [ht, countLate, if_pos (hlate.mpr hcounts), countOn_port, hport]
    · rw [ht, countLate, if_neg (mt hlate.mp hnot), hport]

/-! ## A row (R105, R108, R109, R116) -/

/-- The pixels of a row as its segments give them. -/
def rowPixels (row : Nat) (s : State) : List Colour :=
  assembleRow s.engine.active.backdrop 0 (scanSegments row (rowSegments row s.engine) s).2

theorem scanRow_outputs (row : Nat) (s : State) : (scanRow row s).outputs =
    { s.outputs with panelRow := some (row, sentRow s.scan.latch (rowPixels row s)) } := by
  have hsegments := (scanSegments_sameBut row (rowSegments row s.engine) s).outputs (by simp)
  have hends := ((examineOn_sameBut .a row Config.panelColumns (scanSegments row (rowSegments row s.engine) s).1).mono
    (d := [.port .a, .port .b]) (by simp)).trans ((examineOn_sameBut .b row Config.panelColumns _).mono (by simp))
  have houtputs := (hends.outputs (by simp)).trans hsegments
  exact congrArg (fun o : Outputs => { o with panelRow := some (row, sentRow s.scan.latch (rowPixels row s)) }) houtputs

/-- The examinations at the end of a row see the state that its segments leave. -/
theorem scanRow_port_eq (row : Nat) (s : State) (l : Link) :
    let x := (scanSegments row (rowSegments row s.engine) s).1
    (scanRow row s).port l = (x.port l).examined (examine x.engine s.scan.frame l row 2480 (x.port l).stream) := by
  intro x
  have hscan : x.scan = s.scan := (scanSegments_sameBut row (rowSegments row s.engine) s).scan (by simp)
  have hfirst := examineOn_sameBut .a row Config.panelColumns x
  rw [scanRow_port, ← hscan]
  cases l with
  | a =>
    rw [show (endOfRow .b row (endOfRow .a row x)).port .a = (endOfRow .a row x).port .a from
      (examineOn_sameBut .b row Config.panelColumns _).port .a (by simp)]
    exact examineOn_port_eq .a row Config.panelColumns x
  | b =>
    have hsecond := examineOn_port_eq .b row Config.panelColumns (endOfRow .a row x)
    rw [show (endOfRow .a row x).port .b = x.port .b from hfirst.port .b (by simp), endOfRow_engine, endOfRow_scan]
      at hsecond
    exact hsecond

theorem scanSegment_still {row : Nat} {r : RuntimeRecord} (h : r.region.owner = none ∨ r.region.content ≠ .streamed)
    (s : State) : (scanSegment row r s).1 = s := by
  unfold scanSegment
  split
  · rfl
  · next l ho hc => exact absurd hc (h.resolve_left (by simp [ho]))
  · rfl

theorem scanSegment_streamed {row : Nat} {r : RuntimeRecord} {l : Link} (howner : r.region.owner = some l)
    (hc : r.region.content = .streamed) (s : State) : scanSegment row r s = scanStreamed l row r s := by
  unfold scanSegment
  rw [howner, hc]

/-- Settles O41: the segments in turn, each queue's examination at the end, and the row sent. -/
theorem rowScanSendsOneRow : Obligations.RowScanSendsOneRow := by
  refine ⟨fun s h => ⟨fun hrow => ?_, fun row hrow => ?_⟩, fun row r rs s => ⟨rfl, fun hstill => ?_, fun l howner hc => ?_⟩⟩
  · simp only [exec, execRowScan, unlessHeld_running h, hrow]
  · intro segs x
    refine ⟨?_, rowSegments_sorted row s.engine, scanRow row s, sentRow s.scan.latch (rowPixels row s), ?_,
      scanRow_sameBut row s, ?_, scanRow_outputs row s, ?_, scanRow_engine row s, fun l => ?_, fun hlatch => ?_,
      fun hempty hlatch => ?_⟩
    · have hcross : (activeRecords s.engine).filter (fun r => r.region.row0 ≤ row
          ∧ row ≤ r.region.row0 + r.region.height - 1 ∧ 1 ≤ r.region.height)
            = (activeRecords s.engine).filter (fun q => crossesRow row q.region) := by
        refine List.filter_congr fun r _ => ?_
        rw [Bool.eq_iff_iff, crossesRow, decide_eq_true_iff, decide_eq_true_iff]
        omega
      rw [hcross]
      exact rowSegments_perm row s.engine
    · simp only [exec, execRowScan, unlessHeld_running h, hrow]
    · rw [scanRow_scan, rowAfter_left]
    · rw [scanRow_engine]
      exact scanSegments_opensGates row _ s
    · exact scanRow_port_eq row s l
    · rw [sentRow, if_neg hlatch]
      rfl
    · have hnil : rowSegments row s.engine = [] := by simp [rowSegments, hempty]
      rw [sentRow, if_pos hlatch, rowPixels, hnil]
      rfl
  · change (scanSegments row rs (scanSegment row r s).1).1 = _
    rw [scanSegment_still hstill]
  · change (scanSegments row rs (scanSegment row r s).1).1 = _
    rw [scanSegment_streamed howner hc]

/-! ## The segments of a row side by side (R13, R108) -/

/-- Regions of a layout that share a pixel are one (R13). -/
abbrev RegionsApart (gs : List Region) : Prop :=
  ∀ g ∈ gs, ∀ h ∈ gs, ∀ c r, containsPixel g c r = true → containsPixel h c r = true → g = h

theorem containsPixel_iff {g : Region} {c r : Nat} : containsPixel g c r = true ↔
    g.col0 ≤ c ∧ c < g.col0 + g.width ∧ g.row0 ≤ r ∧ r < g.row0 + g.height := decide_eq_true_iff

theorem regionsApart_of_pairwise {gs : List Region} (h : gs.Pairwise (fun x y => overlaps x y = false)) :
    RegionsApart gs := by
  intro g hg k hk c r hgc hkc
  rw [containsPixel_iff] at hgc hkc
  have hshare {x y : Region} : overlaps x y = false → ¬ SharesPixel x y := fun hno hyes =>
    absurd (overlaps_eq_true.mpr hyes) (by simp [hno])
  have : Std.Symm (fun x y : Region => ¬ SharesPixel x y) := ⟨fun x y hxy hyx => hxy (by unfold SharesPixel at *; omega)⟩
  by_contra hne
  exact (h.imp hshare).forall hg hk hne (by unfold SharesPixel; omega)

section
variable {s : State} (hr : RecordsOk s) (hs : SlotsOk s)
include hr hs

/-- The active layout is the active slot's, which passed the commit checks (R8, R13). -/
theorem activeRegions_ok : (∀ g ∈ (activeRecords s.engine).map (·.region), RegionOk g)
    ∧ ((activeRecords s.engine).map (·.region)).Pairwise (fun x y => overlaps x y = false) := by
  obtain ⟨-, -, -, hempty, hslot, -⟩ := hr
  cases hactive : s.engine.active.slot with
  | none =>
    rw [hempty hactive]
    exact ⟨by simp, .nil⟩
  | some n =>
    rw [hslot n hactive]
    obtain ⟨-, hregions, hapart, -⟩ := (layoutOk_iff _).mp (hs.1 n)
    exact ⟨hregions, hapart⟩

theorem activeRegions_apart : RegionsApart ((activeRecords s.engine).map (·.region)) :=
  regionsApart_of_pairwise (activeRegions_ok hr hs).2

end

theorem activeRegions_opensGates {e f : Engine} (h : OpensGates e f) :
    (activeRecords f).map (·.region) = (activeRecords e).map (·.region) := by
  obtain ⟨change, rfl, hchange⟩ := h
  have hmember (r : RuntimeRecord) : (change r).membership = r.membership := by
    obtain heq | ⟨-, heq⟩ := hchange r <;> rw [heq]
  have hregion (r : RuntimeRecord) : (change r).region = r.region := by
    obtain heq | ⟨-, heq⟩ := hchange r <;> rw [heq]
  rw [activeRecords_map rfl fun r _ => hmember r, List.map_map]
  exact List.map_congr_left fun r _ => hregion r

theorem comparePosition_consume {row col atRow atCol : Nat} (h : comparePosition row col atRow atCol = .consume) :
    row = atRow ∧ col = atCol := by
  unfold comparePosition at h
  split at h
  · cases h
  · split at h
    · assumption
    · cases h

theorem resolve_active_mem {e : Engine} {epoch : Word} {tag : Byte} {r : RuntimeRecord}
    (h : resolve e epoch tag = some r) (hp : pendingEpoch e ≠ some epoch) : r ∈ activeRecords e := by
  by_cases hout : tag.toNat = 0 ∨ 15 < tag.toNat
  · rw [resolve_of_out hout] at h
    cases h
  · exact recordWithTag_mem ((resolve_of_active (by omega) (by omega) hp r).mp h).1

/-- A consumed line is of a region of the active layout that begins at the position, and fits it (R113). -/
theorem judge_consume {e : Engine} {frame : Word} {l : Link} {row col : Nat} {p : Line}
    (h : judge e frame l row col p = .consume) : ∃ r ∈ activeRecords e, r.region.col0 = col
      ∧ p.row.toNat < r.region.height ∧ r.region.row0 + p.row.toNat = row
      ∧ p.offset.toNat + p.pixels.length ≤ r.region.width := by
  cases hr : resolve e p.epoch p.tag with
  | none => exact absurd ((judge_unresolved hr).symm.trans h) nofun
  | some r =>
    cases hfit : fitsStreamed l r.region p with
    | false => exact absurd ((judge_unfit hr hfit).symm.trans h) nofun
    | true =>
      by_cases hp : pendingEpoch e = some p.epoch
      · exact absurd ((judge_ofPendingEpoch hr hfit hp).symm.trans h) nofun
      by_cases hearlier : 128 ≤ frameDistance p.frameTag frame
      · exact absurd ((judge_ofEarlierFrame hr hfit hp hearlier).symm.trans h) nofun
      by_cases hlater : 1 ≤ frameDistance p.frameTag frame
      · exact absurd ((judge_ofLaterFrame hr hfit hp hlater (by omega)).symm.trans h) nofun
      rw [judge_ofThisFrame hr hfit hp (by omega)] at h
      obtain ⟨hrow, hcol⟩ := comparePosition_consume h
      obtain ⟨-, -, hheight, hwidth⟩ := (fitsStreamed_iff l r.region p).mp hfit
      exact ⟨r, resolve_active_mem hr hp, hcol, hheight, hrow, hwidth⟩

theorem storedPixels_length (store : List PixelCell) (row : Nat) (r : RuntimeRecord) :
    (storedPixels store row r).length = r.region.width := by
  unfold storedPixels
  dsimp only
  split
  · exact List.length_replicate
  · split
    · exact List.length_replicate
    · split
      · exact readPixels_length ..
      · rw [List.length_reverse, readPixels_length]

/-- The regions of a layout that the panel can show: apart, each of some width. -/
abbrev Shown (e : Engine) : Prop :=
  RegionsApart ((activeRecords e).map (·.region)) ∧ ∀ r ∈ activeRecords e, 1 ≤ r.region.width

theorem Shown.opensGates {e f : Engine} (h : Shown e) (hf : OpensGates e f) : Shown f := by
  have hregions := activeRegions_opensGates hf
  refine ⟨hregions ▸ h.1, fun r hr => ?_⟩
  have hmem : r.region ∈ (activeRecords e).map (·.region) := hregions ▸ List.mem_map_of_mem hr
  obtain ⟨q, hq, heq⟩ := List.mem_map.mp hmem
  exact heq ▸ h.2 q hq

/-- A segment gives as many pixels as its region is wide. -/
theorem scanSegment_length {row : Nat} {r : RuntimeRecord} {s : State} (h : Shown s.engine)
    (hr : r.region ∈ (activeRecords s.engine).map (·.region)) (hcross : crossesRow row r.region = true) :
    (scanSegment row r s).2.length = r.region.width := by
  unfold scanSegment
  split
  · exact List.length_replicate
  · next l _ _ =>
    cases hx : (examine s.engine s.scan.frame l row r.region.col0 (s.port l).stream).consumed with
    | none =>
      rw [scanStreamed_waiting hx]
      exact List.length_replicate
    | some p =>
      obtain ⟨q, hq, hcol, hheight, hrow, hfit⟩ := judge_consume (examine_consumed _ _ _ _ _ _ _ hx)
      obtain ⟨q', hq', hregion⟩ := List.mem_map.mp hr
      have hwidth := h.2 q' hq'
      have hcross : r.region.row0 ≤ row ∧ row < r.region.row0 + r.region.height := of_decide_eq_true hcross
      have hsame : q.region = r.region := h.1 _ (List.mem_map_of_mem hq) _ hr r.region.col0 row
        (containsPixel_iff.mpr ⟨by omega, by have := h.2 q hq; omega, by omega, by omega⟩)
        (containsPixel_iff.mpr ⟨by omega, by rw [hregion] at hwidth; omega, by omega, by omega⟩)
      rw [scanStreamed_consumed hx]
      exact linePixels_length (hsame ▸ hfit)
  · exact storedPixels_length ..

/-- The segments of a row as it is put together: in order, each as wide as its region. -/
theorem segsFrom_scanSegments {row : Nat} (rs : List RuntimeRecord) {s : State} (h : Shown s.engine) {col : Nat}
    (hcol : col ≤ 2480) (hfrom : ∀ r ∈ rs, col ≤ r.region.col0)
    (hpanel : ∀ r ∈ rs, r.region.col0 + r.region.width ≤ 2480)
    (hsorted : rs.Pairwise (fun a b => a.region.col0 + a.region.width ≤ b.region.col0))
    (hrs : ∀ r ∈ rs, r.region ∈ (activeRecords s.engine).map (·.region) ∧ crossesRow row r.region = true) :
    SegsFrom col (scanSegments row rs s).2 := by
  induction rs generalizing s col with
  | nil => exact hcol
  | cons r rs ih =>
    obtain ⟨hbefore, hsorted⟩ := List.pairwise_cons.mp hsorted
    obtain ⟨hr, hrs⟩ := List.forall_mem_cons.mp hrs
    obtain ⟨hend, hpanel⟩ := List.forall_mem_cons.mp hpanel
    have hgates := scanSegment_opensGates row r s
    refine ⟨hfrom r List.mem_cons_self, ?_⟩
    rw [scanSegment_length h hr.1 hr.2]
    exact ih (h.opensGates hgates) hend hbefore hpanel hsorted fun q hq =>
      ⟨activeRegions_opensGates hgates ▸ (hrs q hq).1, (hrs q hq).2⟩

/-- Each segment gives its pixels on the state that the ones before it leave. -/
theorem mem_scanSegments {row : Nat} (before : List RuntimeRecord) (r : RuntimeRecord) (after : List RuntimeRecord)
    (s : State) : (r.region.col0, (scanSegment row r (scanSegments row before s).1).2)
      ∈ (scanSegments row (before ++ r :: after) s).2 := by
  induction before generalizing s with
  | nil => exact List.mem_cons_self
  | cons q qs ih => exact List.mem_cons_of_mem _ (ih _)

theorem exists_of_mem_scanSegments {row : Nat} {rs : List RuntimeRecord} {s : State} {x : Nat × List Colour}
    (hx : x ∈ (scanSegments row rs s).2) : ∃ before r after, rs = before ++ r :: after
      ∧ x = (r.region.col0, (scanSegment row r (scanSegments row before s).1).2) := by
  induction rs generalizing s with
  | nil => exact absurd hx List.not_mem_nil
  | cons r rs ih =>
    obtain rfl | hx := List.mem_cons.mp hx
    · exact ⟨[], r, rs, rfl, rfl⟩
    · obtain ⟨before, q, after, rfl, rfl⟩ := ih hx
      exact ⟨r :: before, q, after, rfl, rfl⟩

/-! ## The pixels of a row (R108 to R110) -/

section
variable {s : State} (hr : RecordsOk s) (hs : SlotsOk s) (row : Nat)
include hr hs

theorem shown_of_laws : Shown s.engine := by
  refine ⟨activeRegions_apart hr hs, fun r hmem => ?_⟩
  obtain ⟨-, -, -, hwidth, -⟩ := (activeRegions_ok hr hs).1 _ (List.mem_map_of_mem hmem)
  omega

theorem rowSegments_apart : (rowSegments row s.engine).Pairwise
    (fun a b => a.region.col0 + a.region.width ≤ b.region.col0) := by
  have hsym : Std.Symm (fun a b : RuntimeRecord => ¬ SharesPixel a.region b.region) :=
    ⟨fun x y hxy hyx => hxy (by unfold SharesPixel at *; omega)⟩
  have hactive : (activeRecords s.engine).Pairwise (fun a b => ¬ SharesPixel a.region b.region) :=
    (List.pairwise_map.mp (activeRegions_ok hr hs).2).imp fun hno hyes =>
      absurd (overlaps_eq_true.mpr hyes) (by simp [hno])
  have hrow := ((rowSegments_perm row s.engine).pairwise_iff fun hxy => hsym.symm _ _ hxy).mpr (hactive.filter _)
  refine ((rowSegments_sorted row s.engine).and hrow).imp_of_mem fun ha hb h => ?_
  obtain ⟨hle, hapart⟩ := h
  have hcross {r : RuntimeRecord} (hmem : r ∈ rowSegments row s.engine) :
      r.region.row0 ≤ row ∧ row < r.region.row0 + r.region.height := by
    simpa [crossesRow] using (List.mem_filter.mp ((rowSegments_perm row s.engine).mem_iff.mp hmem)).2
  have hwidth := (shown_of_laws hr hs).2 _ (mem_rowSegments hb)
  have := hcross ha
  have := hcross hb
  unfold SharesPixel at hapart
  omega

theorem segsFrom_row : SegsFrom 0 (scanSegments row (rowSegments row s.engine) s).2 := by
  have hregions := (activeRegions_ok hr hs).1
  refine segsFrom_scanSegments _ (shown_of_laws hr hs) (Nat.zero_le _) (fun _ _ => Nat.zero_le _) (fun r hmem => ?_)
    (rowSegments_apart hr hs row) fun r hmem => ⟨List.mem_map_of_mem (mem_rowSegments hmem),
      (List.mem_filter.mp ((rowSegments_perm row s.engine).mem_iff.mp hmem)).2⟩
  obtain ⟨-, -, -, -, -, hpanel, -⟩ := hregions _ (List.mem_map_of_mem (mem_rowSegments hmem))
  exact hpanel

theorem rowPixels_length : (rowPixels row s).length = 2480 :=
  (assemble_len _ _ 0 (segsFrom_row hr hs row)).1

/-- A column of no active region shows the backdrop (R108). -/
theorem rowPixels_backdrop {c : Nat} (hc : c < 2480)
    (h : ∀ r ∈ activeRecords s.engine, containsPixel r.region c row = false) :
    (rowPixels row s)[c]? = some s.engine.active.backdrop := by
  refine assemble_gap _ _ 0 c (segsFrom_row hr hs row) (Nat.zero_le c) hc fun x hx hin => ?_
  obtain ⟨before, r, after, hsplit, rfl⟩ := exists_of_mem_scanSegments hx
  have hmem : r ∈ rowSegments row s.engine := hsplit ▸ List.mem_append_right _ List.mem_cons_self
  have hcross := (List.mem_filter.mp ((rowSegments_perm row s.engine).mem_iff.mp hmem)).2
  have hgates := scanSegments_opensGates row before s
  have hlength := scanSegment_length ((shown_of_laws hr hs).opensGates hgates)
    (activeRegions_opensGates hgates ▸ List.mem_map_of_mem (mem_rowSegments hmem)) hcross
  have hrows : r.region.row0 ≤ row ∧ row < r.region.row0 + r.region.height := of_decide_eq_true hcross
  dsimp only at hin
  rw [hlength] at hin
  have := h r (mem_rowSegments hmem)
  rw [containsPixel_iff.mpr ⟨hin.1, hin.2, hrows.1, hrows.2⟩] at this
  cases this

/-- A column of an active region shows what its segment gives at its turn. -/
theorem rowPixels_segment {c : Nat} {r : RuntimeRecord} (hmem : r ∈ activeRecords s.engine)
    (h : containsPixel r.region c row = true) : ∃ before after, rowSegments row s.engine = before ++ r :: after
      ∧ (rowPixels row s)[c]? = (scanSegment row r (scanSegments row before s).1).2[c - r.region.col0]? := by
  obtain ⟨hleft, hright, htop, hbottom⟩ := containsPixel_iff.mp h
  have hcross : crossesRow row r.region = true := decide_eq_true ⟨htop, hbottom⟩
  have hseg : r ∈ rowSegments row s.engine := (rowSegments_perm row s.engine).mem_iff.mpr
    (List.mem_filter.mpr ⟨hmem, hcross⟩)
  obtain ⟨before, after, hsplit⟩ := List.append_of_mem hseg
  have hgates := scanSegments_opensGates row before s
  have hlength := scanSegment_length ((shown_of_laws hr hs).opensGates hgates)
    (activeRegions_opensGates hgates ▸ List.mem_map_of_mem hmem) hcross
  refine ⟨before, after, hsplit, ?_⟩
  have hin := mem_scanSegments (row := row) before r after s
  rw [← hsplit] at hin
  exact assemble_at _ _ 0 c _ (segsFrom_row hr hs row) hin hleft (by rw [hlength]; exact hright)

end

/-- The local column of a panel column (R110). -/
def localColumn (g : Region) (c : Nat) : Nat :=
  match g.orientation with
  | .upright => c - g.col0
  | .turned => g.width - 1 - (c - g.col0)

section
variable {store : List PixelCell} {row : Nat} {r : RuntimeRecord} {b : Buffers} (hb : r.buffers = some b)
include hb

theorem storedPixels_fill (h : r.gate = .closed ∨ rowValid b.front (localRow r.region row) = false) :
    storedPixels store row r = List.replicate r.region.width r.region.fill := by
  simp only [storedPixels, hb, if_pos h]

/-- An OPEN region whose row is valid shows its front buffer, read backwards when it is TURNED (R110). -/
theorem storedPixels_front (hgate : r.gate = .opened) (hvalid : rowValid b.front (localRow r.region row) = true)
    {c : Nat} (hleft : r.region.col0 ≤ c) (hright : c < r.region.col0 + r.region.width) :
    (storedPixels store row r)[c - r.region.col0]? =
      some (pixelAt store (rowAddress b.front r.region.width (localRow r.region row) + localColumn r.region c)) := by
  have hshown : ¬ (r.gate = .closed ∨ rowValid b.front (localRow r.region row) = false) := by simp [hgate, hvalid]
  have hi : c - r.region.col0 < r.region.width := by omega
  cases ho : r.region.orientation with
  | upright =>
    simp only [storedPixels, hb, if_neg hshown, ho, localColumn]
    exact readPixels_getElem _ _ _ _ hi
  | turned =>
    simp only [storedPixels, hb, if_neg hshown, ho, localColumn]
    rw [List.getElem?_reverse (by rwa [readPixels_length]), readPixels_length]
    exact readPixels_getElem _ _ _ _ (by omega)

end

theorem scanSegment_pixels_unowned {row : Nat} {r : RuntimeRecord} (h : r.region.owner = none) (s : State) :
    (scanSegment row r s).2 = List.replicate r.region.width r.region.fill := by
  simp only [scanSegment, h]

theorem scanSegment_pixels_stored {row : Nat} {r : RuntimeRecord} {l : Link} (howner : r.region.owner = some l)
    (hc : r.region.content ≠ .streamed) (s : State) : (scanSegment row r s).2 = storedPixels s.store row r := by
  unfold scanSegment
  split
  · next ho => exact absurd (howner.symm.trans ho) nofun
  · next heq => exact absurd heq hc
  · rfl

/-- Settles O42: the backdrop between the segments, and each segment's pixels by its owner and content. -/
theorem everyPixelFollowsItsRegion : Obligations.EveryPixelFollowsItsRegion := by
  intro s row hr hs h hrow hlatch
  refine ⟨scanRow row s, rowPixels row s, ?_, ?_, rowPixels_length hr hs row, fun c hc =>
    ⟨rowPixels_backdrop hr hs row hc, fun r hmem hpixel => ?_⟩⟩
  · simp only [exec, execRowScan, unlessHeld_running h, hrow]
  · rw [scanRow_outputs, sentRow, if_pos hlatch]
  obtain ⟨before, after, hsplit, hpx⟩ := rowPixels_segment hr hs row hmem hpixel
  obtain ⟨hleft, hright, -, -⟩ := containsPixel_iff.mp hpixel
  have hfill : (List.replicate r.region.width r.region.fill)[c - r.region.col0]? = some r.region.fill := by
    rw [List.getElem?_replicate, if_pos (by omega)]
  refine ⟨fun hnone => ?_, fun l howner hcontent => ⟨before, after, hsplit, ?_⟩, fun b hcontent hb => ?_⟩
  · rw [hpx, scanSegment_pixels_unowned hnone, hfill]
  · rw [hpx, scanSegment_streamed howner hcontent]
  · intro lr lc
    have hlr : localRow r.region row = lr := rfl
    have hlc : localColumn r.region c = lc := rfl
    obtain ⟨hregion, -⟩ := hr.1 r (mem_activeRecords.mp hmem).1
    obtain ⟨-, -, -, -, -, -, -, -, hnone, -⟩ := hregion
    obtain ⟨l, howner⟩ := Option.ne_none_iff_exists'.mp fun ho => hcontent (hnone ho)
    have hstore : (scanSegments row before s).1.store = s.store := (scanSegments_sameBut row before s).store (by simp)
    rw [hpx, scanSegment_pixels_stored howner hcontent, hstore]
    refine ⟨fun hblank => ?_, fun hgate hvalid => ?_⟩
    · rw [storedPixels_fill hb (hlr ▸ hblank), hfill]
    · rw [storedPixels_front hb hgate (hlr ▸ hvalid) hleft hright, hlr, hlc]
      rfl

end Sys2Proof.Machine
end

section
/-! PROOFS. The cutoff latch (section 5.4) and the touch router (chapter 6): reports, the contact table, the mapping. -/

namespace Sys2Proof.Machine

/-! ## CUTOFF and RESUME (R119, R121, R140) -/

/-- The level of CUTOFF last known is no part of what an arrival reads. -/
theorem arrive_withCutoffInput_port (l : Link) (s : State) (cutoff : Bool) :
    (arrive l { s with cutoffInput := cutoff }).port l = (arrive l s).port l := by
  unfold arrive
  by_cases hoff : (s.port l).state = .offline
  · rw [if_pos hoff, if_pos (show (State.port { s with cutoffInput := cutoff } l).state = .offline from hoff)]
    dsimp only
    rw [notify_port, notify_port]
    rfl
  · rw [if_neg hoff, if_neg (show ¬ (State.port { s with cutoffInput := cutoff } l).state = .offline from hoff)]
    rfl

/-- The state that an assertion of CUTOFF leaves before the contacts are cancelled. -/
def cutoffTold (s : State) : State :=
  notifyBoth (.cutoff true s.scan.frame) (modScan (fun c => { c with latch := .latched }) { s with cutoffInput := true })

theorem cutoffTold_sameBut (s : State) : SameBut [.scan, .port .a, .port .b, .cutoffInput] s (cutoffTold s) := by
  have hlatched : SameBut [.scan, .port .a, .port .b, .cutoffInput] s
      (modScan (fun c => { c with latch := .latched }) { s with cutoffInput := true }) :=
    ((withCutoffInput_sameBut true s).mono (by simp)).trans
      ((withScan_sameBut { s.scan with latch := .latched } { s with cutoffInput := true }).mono (by simp))
  exact hlatched.trans ((notifyBoth_sameBut _ _).mono (by simp))

theorem cutoffTold_scan (s : State) : (cutoffTold s).scan = { s.scan with latch := .latched } :=
  (notifyBoth_sameBut _ _).scan (by simp)

theorem cutoffTold_port (s : State) (l : Link) :
    (cutoffTold s).port l = handed (.cutoff true s.scan.frame) (s.port l) := notifyBoth_port _ _ l

/-- Settles O45: the assertion latches, tells both links and cancels; RESUME by the latch and the level it was sent
with. -/
theorem cutoffLatchesAndResumeClears : Obligations.CutoffLatchesAndResumeClears := by
  refine ⟨fun s h => ⟨cutoffEffect s, ?_, ?_⟩, fun l tag cutoff s h =>
    ⟨resumeEffect l tag cutoff (arrive l { s with cutoffInput := cutoff }), ?_, ?_, fun hlatch => ?_, fun hlatch hc => ?_,
      fun hlatch hc => ?_⟩⟩
  · simp only [exec, execCutoffAssert, unlessHeld_running h]
  · obtain ⟨hcancel, htouch, hcontacts, hports⟩ := cancelContacts_spec .cutoff [] (cutoffTold s)
    have htold := cutoffTold_sameBut s
    have hinput : (cutoffTold s).cutoffInput = true := (notifyBoth_sameBut _ _).cutoffInput (by simp)
    rw [htold.touch (by simp)] at htouch hcontacts
    rw [show cutoffEffect s = cancelContacts .cutoff [] (cutoffTold s) from rfl]
    generalize cancelContacts .cutoff [] (cutoffTold s) = t at hcancel htouch hcontacts hports ⊢
    refine ⟨(htold.mono (by simp)).trans (hcancel.mono (by simp)), ?_, ?_, htouch, hcontacts, fun l => ?_⟩
    · exact (hcancel.scan (by simp)).trans (cutoffTold_scan s)
    · exact (hcancel.cutoffInput (by simp)).trans hinput
    · have hport := hports l
      rwa [htold.touch (by simp), htold.engine (by simp), cutoffTold_port] at hport
  all_goals
    have hfree : SlotFree l { s with cutoffInput := cutoff } := h
    have harrive : SameBut [.cutoffInput, .port l] s (arrive l { s with cutoffInput := cutoff }) :=
      ((withCutoffInput_sameBut cutoff s).mono (by simp)).trans ((arrive_sameBut l _).mono (by simp))
    have hport := arrive_withCutoffInput_port l s cutoff
    have hlatched : (arrive l { s with cutoffInput := cutoff }).scan = s.scan := by rw [arrive_scan]
  · have htakes : TakesPackets s := h.1.1
    simp only [exec, execResume, unlessHeld_running htakes, slotCommand_free hfree]
  · unfold resumeEffect
    split
    · rw [(answer_sameBut _ _ _ _ _ _).cutoffInput (by simp), arrive_cutoffInput]
    · split
      · rw [(answer_sameBut _ _ _ _ _ _).cutoffInput (by simp), arrive_cutoffInput]
      · rw [(answer_sameBut _ _ _ _ _ _).cutoffInput (by simp), modScan_cutoffInput, arrive_cutoffInput]
  · rw [resumeEffect, if_pos (by rw [hlatched, hlatch])]
    exact ⟨harrive.trans ((answer_sameBut _ _ _ _ _ _).mono (by simp)), answersWith_answer hport ..⟩
  · rw [resumeEffect, if_neg (by rw [hlatched]; exact hlatch), if_pos hc]
    exact ⟨harrive.trans ((answer_sameBut _ _ _ _ _ _).mono (by simp)), answersWith_answer hport ..⟩
  · rw [resumeEffect, if_neg (by rw [hlatched]; exact hlatch), if_neg (by simp [hc]), hlatched]
    refine ⟨(harrive.mono (by simp)).trans (((withScan_sameBut _ _).mono (by simp)).trans
      ((answer_sameBut _ _ _ _ _ _).mono (by simp))), ?_, answersWith_answer (t := modScan _ _) hport ..⟩
    rw [(answer_sameBut _ _ _ _ _ _).scan (by simp), modScan_scan, hlatched]

/-! ## Touch reports (R126 to R128) -/

/-- An entry that R127 does not let pass. -/
abbrev BadEntry (e : TouchEntry) : Prop :=
  9 < e.id.toNat ∨ 2 < e.event.toNat ∨ 4095 < e.tx.toNat ∨ 4095 < e.ty.toNat

theorem touchKindOfByte_of_gt {b : Byte} (h : 2 < b.toNat) : touchKindOfByte b = none := by
  unfold touchKindOfByte
  rw [if_neg (by rintro rfl; simp at h), if_neg (by rintro rfl; simp at h), if_neg (by rintro rfl; simp at h)]

theorem touchKindOfByte_of_le {b : Byte} (h : b.toNat ≤ 2) : ∃ k, touchKindOfByte b = some k := by
  unfold touchKindOfByte
  split
  · exact ⟨_, rfl⟩
  · next h0 =>
    split
    · exact ⟨_, rfl⟩
    · next h1 =>
      refine ⟨.up, if_pos (BitVec.eq_of_toNat_eq ?_)⟩
      have h0 : b.toNat ≠ 0 := fun heq => h0 (BitVec.eq_of_toNat_eq heq)
      have h1 : b.toNat ≠ 1 := fun heq => h1 (BitVec.eq_of_toNat_eq heq)
      simp
      omega

theorem checkEntry_of_bad {e : TouchEntry} (h : BadEntry e) : checkEntry e = none := by
  unfold checkEntry
  split
  · next c k hc hk =>
    refine if_neg fun hxy => ?_
    have hid : e.id.toNat < 10 := by
      by_contra hge
      rw [touchIdOfByte, dif_neg hge] at hc
      cases hc
    have hevent : e.event.toNat ≤ 2 := by
      by_contra hgt
      rw [touchKindOfByte_of_gt (by omega)] at hk
      cases hk
    unfold BadEntry at h
    omega
  · rfl

theorem checkEntry_of_good {e : TouchEntry} (h : ¬ BadEntry e) : ∃ x, checkEntry e = some x ∧ x.id.val = e.id.toNat
    ∧ touchKindOfByte e.event = some x.kind ∧ x.tx = e.tx.toNat ∧ x.ty = e.ty.toNat := by
  have hid : e.id.toNat < 10 := by unfold BadEntry at h; omega
  obtain ⟨k, hk⟩ := touchKindOfByte_of_le (b := e.event) (by unfold BadEntry at h; omega)
  have hc : touchIdOfByte e.id = some ⟨e.id.toNat, hid⟩ := dif_pos hid
  refine ⟨{ id := ⟨e.id.toNat, hid⟩, kind := k, tx := e.tx.toNat, ty := e.ty.toNat }, ?_, rfl, hk, rfl, rfl⟩
  simp only [checkEntry, hc, hk]
  exact if_pos (by unfold BadEntry at h; omega)

theorem checkEntries_of_bad {es : List TouchEntry} (h : ∃ e ∈ es, BadEntry e) : checkEntries es = none := by
  induction es with
  | nil => simp at h
  | cons e es ih =>
    obtain ⟨x, hx, hbad⟩ := h
    obtain rfl | hx := List.mem_cons.mp hx
    · simp only [checkEntries, checkEntry_of_bad hbad]
    · simp only [checkEntries, ih ⟨x, hx, hbad⟩]
      split
      · next heq => cases heq
      · rfl

theorem checkEntries_of_good {es : List TouchEntry} (h : ∀ e ∈ es, ¬ BadEntry e) : ∃ xs, checkEntries es = some xs
    ∧ List.Forall₂ (fun (e : TouchEntry) (x : CheckedEntry) => x.id.val = e.id.toNat
      ∧ touchKindOfByte e.event = some x.kind ∧ x.tx = e.tx.toNat ∧ x.ty = e.ty.toNat) es xs := by
  induction es with
  | nil => exact ⟨[], rfl, .nil⟩
  | cons e es ih =>
    obtain ⟨he, hes⟩ := List.forall_mem_cons.mp h
    obtain ⟨x, hx, hfields⟩ := checkEntry_of_good he
    obtain ⟨xs, hxs, hall⟩ := ih hes
    exact ⟨x :: xs, by simp only [checkEntries, hx, hxs], .cons hfields hall⟩

theorem takeReport_malformed {count : Byte} {entries : List TouchEntry} (h : checkReport count entries = none)
    (s : State) : takeReport count entries s = countMalformedReport s := by
  simp only [takeReport, h]

theorem takeReport_wellFormed {count : Byte} {entries : List TouchEntry} {es : List CheckedEntry}
    (h : checkReport count entries = some es) (s : State) : takeReport count entries s = applyEntries es s := by
  simp only [takeReport, h]

theorem checkReport_whole {count : Byte} {entries : List TouchEntry} (hcount : count.toNat ≤ 10)
    (hlength : entries.length = count.toNat) : checkReport count entries = checkEntries entries := by
  rw [checkReport, if_neg (by omega), ← hlength, List.take_length]

/-- Settles O46: the port by whether a read is in progress, a report by its count and its entries. -/
theorem touchReportsAreCheckedWhole : Obligations.TouchReportsAreCheckedWhole := by
  intro count entries ready s h badEntry bad
  have htaken (hreading : s.touch.reading = true) :
      exec (.touchReport count entries ready) s = .next (setReading ready (takeReport count entries s)) := by
    simp only [exec, execTouchReport, unlessHeld_running h, hreading, if_true]
  refine ⟨?_, fun hreading => ?_, fun hidle => ⟨?_, ?_⟩, fun hreading => ⟨fun hcount => ?_, fun hcount hlength =>
    ⟨fun hbad => ?_, fun hgood => ?_⟩⟩⟩
  · simp only [exec, execTouchReadStart, unlessHeld_running h]
    rfl
  · simp only [exec, execTouchReadTimeout, unlessHeld_running h, hreading, if_true]
    rfl
  · simp only [exec, execTouchReadTimeout, unlessHeld_running h, hidle, Bool.false_eq_true, if_false]
  · simp only [exec, execTouchReport, unlessHeld_running h, hidle, Bool.false_eq_true, if_false]
  · rw [htaken hreading, takeReport_malformed (if_pos (.inl hcount))]
    rfl
  · rw [htaken hreading, takeReport_malformed ((checkReport_whole hcount hlength).trans (checkEntries_of_bad hbad))]
    rfl
  · obtain ⟨es, hes, hall⟩ := checkEntries_of_good hgood
    refine ⟨es, hall, ?_⟩
    rw [htaken hreading, takeReport_wellFormed ((checkReport_whole hcount hlength).trans hes)]
    rfl

/-! ## The contact table (R134 to R137) -/

theorem setContact_notify_sameBut (c : TouchId) (x : Contact) (l : Link) (n : Notice) (s : State) :
    SameBut [.touch, .port l] s (notify l n (setContact c x s)) :=
  ((withTouch_sameBut _ s).mono (by simp)).trans ((notify_sameBut l n _).mono (by simp))

section
variable {c : TouchId} {p : TouchPoint} {s : State}

/-- A contact that no record takes is discarded (R134). -/
theorem startContact_discards (h : ∀ r, recordUnder s.engine (pixelUnder p).1 (pixelUnder p).2 = some r →
    r.region.owner = none ∨ r.region.touch = .ignore ∨ r.gate = .closed ∨ s.scan.latch ≠ .clear) :
    startContact c p s = setContact c .discard s := by
  unfold startContact
  split
  · rfl
  · next r hr =>
    have hnone : bindOwner s.scan.latch r = none := by
      unfold bindOwner
      split
      · next hall =>
        obtain ⟨htouch, hgate, hlatch⟩ := hall
        obtain ho | ho | ho | ho := h r hr
        · exact ho
        · exact absurd (htouch.symm.trans ho) nofun
        · exact absurd (hgate.symm.trans ho) nofun
        · exact absurd hlatch ho
      · rfl
    simp only [hnone]

theorem startContact_binds {r : RuntimeRecord} {l : Link}
    (h : recordUnder s.engine (pixelUnder p).1 (pixelUnder p).2 = some r) (howner : r.region.owner = some l)
    (htouch : r.region.touch = .route) (hgate : r.gate = .opened) (hlatch : s.scan.latch = .clear) :
    startContact c p s =
      notify l (.touch .down c r.region.tag (localPoint r.region p).1 (localPoint r.region p).2 s.engine.activeEpoch)
        (setContact c (.bound r.region.tag l (localPoint r.region p).1 (localPoint r.region p).2) s) := by
  have hbinds : bindOwner s.scan.latch r = some l := (if_pos ⟨htouch, hgate, hlatch⟩).trans howner
  simp only [startContact, h, hbinds]

theorem boundPoint_of_record {e : Engine} {tag : Nat} {r : RuntimeRecord}
    (h : recordWithTag tag (activeRecords e) = some r) (u v : Nat) :
    boundPoint e tag u v p = localPoint r.region p := by
  simp only [boundPoint, h]

end

section
variable {c : TouchId} {k : TouchKind} {tx ty : Nat} {s : State}

theorem applyEntry_free_up (h : s.touch.contacts.get c = .free) : applyEntry c .up tx ty s = s := by
  simp only [applyEntry, h]

theorem applyEntry_free (h : s.touch.contacts.get c = .free) (hk : k ≠ .up) :
    applyEntry c k tx ty s = startContact c (mapPoint s.touch.calibration tx ty) s := by
  cases k with
  | up => exact absurd rfl hk
  | down => simp only [applyEntry, h]
  | move => simp only [applyEntry, h]

theorem applyEntry_discard_up (h : s.touch.contacts.get c = .discard) :
    applyEntry c .up tx ty s = setContact c .free s := by
  simp only [applyEntry, h]

theorem applyEntry_discard (h : s.touch.contacts.get c = .discard) (hk : k ≠ .up) : applyEntry c k tx ty s = s := by
  cases k with
  | up => exact absurd rfl hk
  | down => simp only [applyEntry, h]
  | move => simp only [applyEntry, h]

variable {tag u v : Nat} {l : Link} (h : s.touch.contacts.get c = .bound tag l u v)
include h

theorem applyEntry_bound_up :
    applyEntry c .up tx ty s = liftContact c tag l u v (mapPoint s.touch.calibration tx ty) s := by
  simp only [applyEntry, h]

theorem applyEntry_bound (hk : k ≠ .up) :
    applyEntry c k tx ty s = moveContact c tag l u v (mapPoint s.touch.calibration tx ty) s := by
  cases k with
  | up => exact absurd rfl hk
  | down => simp only [applyEntry, h]
  | move => simp only [applyEntry, h]

end

/-- Settles O47: the contact by its state, the entry by its kind. -/
theorem contactTableFollowsItsCases : Obligations.ContactTableFollowsItsCases := by
  intro c k tx ty s p found t table
  refine ⟨fun hfree => ⟨?_, fun hk hnone => ?_, fun r l hk hr howner htouch hgate hlatch => ?_⟩,
    fun hdiscard => ⟨?_, fun hk => applyEntry_discard hdiscard hk⟩, fun tag l u v r hbound hr => ?_⟩
  · rintro rfl
    exact applyEntry_free_up hfree
  · exact (applyEntry_free hfree hk).trans (startContact_discards hnone)
  · intro at_
    have ht : t = _ := (applyEntry_free hfree hk).trans (startContact_binds hr howner htouch hgate hlatch)
    rw [ht]
    refine ⟨setContact_notify_sameBut _ _ _ _ _, (notify_sameBut _ _ _).touch (by simp), ?_⟩
    rw [notify_port, setContact_port]
  · rintro rfl
    exact applyEntry_discard_up hdiscard
  · intro at_
    have hpoint : boundPoint s.engine tag u v p = at_ := boundPoint_of_record hr u v
    have hlift (hk : k = .up) : t = notify l (.touch .up c tag at_.1 at_.2 s.engine.activeEpoch)
        (setContact c .free s) := by
      subst hk
      rw [← hpoint]
      exact applyEntry_bound_up hbound
    have hmove (hk : k ≠ .up) : t = notify l (.touch .move c tag at_.1 at_.2 s.engine.activeEpoch)
        (setContact c (.bound tag l at_.1 at_.2) s) := by
      rw [← hpoint]
      exact applyEntry_bound hbound hk
    refine ⟨?_, fun hk => ?_, fun hk => ?_⟩
    · by_cases hk : k = .up
      · rw [hlift hk]
        exact setContact_notify_sameBut _ _ _ _ _
      · rw [hmove hk]
        exact setContact_notify_sameBut _ _ _ _ _
    · rw [hlift hk, notify_port, setContact_port]
      exact ⟨(notify_sameBut _ _ _).touch (by simp), rfl⟩
    · rw [hmove hk, notify_port, setContact_port]
      exact ⟨(notify_sameBut _ _ _).touch (by simp), rfl⟩

/-! ## The mapping (R129, R131, R132) -/

theorem clampTo_eq {x lo hi : Int} (h : lo ≤ hi) : clampTo x lo hi = max lo (min hi x) := by
  unfold clampTo
  split
  · omega
  · split <;> omega

theorem recordUnder_some {e : Engine} {c r : Nat} {q : RuntimeRecord} (h : recordUnder e c r = some q) :
    q ∈ activeRecords e ∧ containsPixel q.region c r = true :=
  ⟨recordUnder_mem h, List.find?_some (p := fun q : RuntimeRecord => containsPixel q.region c r) h⟩

theorem recordUnder_none {e : Engine} {c r : Nat} (h : recordUnder e c r = none) :
    ∀ q ∈ activeRecords e, containsPixel q.region c r = false :=
  fun q hq => by simpa using List.find?_eq_none.mp h q hq

section
variable {a : Int} {corner size : Nat} (hsize : 1 ≤ size)
include hsize

theorem localCoordinate_upright : ((localCoordinate .upright a corner size : Nat) : Int) =
    max 0 (min (16 * (size : Int) - 1) (a - 16 * corner)) := by
  simp only [localCoordinate]
  rw [clampTo_eq (by omega)]
  omega

theorem localCoordinate_turned : ((localCoordinate .turned a corner size : Nat) : Int) =
    16 * (size : Int) - 1 - max 0 (min (16 * (size : Int) - 1) (a - 16 * corner)) := by
  simp only [localCoordinate]
  rw [clampTo_eq (by omega)]
  omega

/-- Within the region the local position is in the pixel that the scan shows there. -/
theorem localCoordinate_pixel (ha : 0 ≤ a) (hfrom : corner ≤ (a / 16).toNat) (hto : (a / 16).toNat < corner + size) :
    localCoordinate .upright a corner size / 16 = (a / 16).toNat - corner
      ∧ localCoordinate .turned a corner size / 16 = size - 1 - ((a / 16).toNat - corner) := by
  have hupright := localCoordinate_upright (a := a) (corner := corner) hsize
  have hturned := localCoordinate_turned (a := a) (corner := corner) hsize
  omega

end

/-- Settles O48: each coordinate by its clamp, the pixel by the region that contains it. -/
theorem touchPositionMatchesReadout : Obligations.TouchPositionMatchesReadout := by
  refine ⟨fun cal tx ty => ?_, fun e c r => ⟨fun q => recordUnder_some, recordUnder_none⟩, fun g p hg hx hy => ?_⟩
  · intro p
    have hx : p.x16 = _ := clampTo_eq (lo := 0) (hi := Config.maxX16) (by decide)
    have hy : p.y16 = _ := clampTo_eq (lo := 0) (hi := Config.maxY16) (by decide)
    refine ⟨hx, hy, ?_, ?_⟩
    · simp only [pixelUnder, hx, Config.maxX16]
      omega
    · simp only [pixelUnder, hy, Config.maxY16]
      omega
  · intro u v du dv
    obtain ⟨-, -, -, hwidth, -, -, hheight, -⟩ := hg
    have hw : 1 ≤ g.width := by omega
    cases ho : g.orientation with
    | upright =>
      have hu : (u : Int) = du := by
        simp only [u, localPoint, ho]
        exact localCoordinate_upright hw
      have hv : (v : Int) = dv := by
        simp only [v, localPoint, ho]
        exact localCoordinate_upright hheight
      refine ⟨fun _ => ⟨hu, hv⟩, nofun, by omega, by omega, fun hin => ?_⟩
      obtain ⟨hleft, hright, htop, hbottom⟩ := containsPixel_iff.mp hin
      have hcolumn := (localCoordinate_pixel hw hx hleft hright).1
      have hrow := (localCoordinate_pixel hheight hy htop hbottom).1
      simp only [u, v, localPoint, localRow, ho]
      exact ⟨hrow, hcolumn⟩
    | turned =>
      have hu : (u : Int) = 16 * g.width - 1 - du := by
        simp only [u, localPoint, ho]
        exact localCoordinate_turned hw
      have hv : (v : Int) = 16 * g.height - 1 - dv := by
        simp only [v, localPoint, ho]
        exact localCoordinate_turned hheight
      refine ⟨nofun, fun _ => ⟨hu, hv⟩, by omega, by omega, fun hin => ?_⟩
      obtain ⟨hleft, hright, htop, hbottom⟩ := containsPixel_iff.mp hin
      have hcolumn := (localCoordinate_pixel hw hx hleft hright).2
      have hrow := (localCoordinate_pixel hheight hy htop hbottom).2
      simp only [u, v, localPoint, localRow, ho]
      exact ⟨hrow, hcolumn⟩

end Sys2Proof.Machine
end

section
/-! PROOFS. The link ports (chapters 7 and 8): the order in which a command is handled, PORT-RESET, STATUS, FETCH, and
the packet that a response is. -/

namespace Sys2Proof.Machine

/-! ## Arrival and the order of handling (R147, R151) -/

theorem arrive_port_of_offline {l : Link} {s : State} (h : (s.port l).state = .offline) :
    (arrive l s).port l = placeNotice (currentNotice l s) { s.port l with state := .online, quiet := 0 } := by
  unfold arrive
  rw [if_pos h]
  dsimp only
  rw [notify_port, comeOnline, port_modPort]
  exact handed_of_not_offline (p := { s.port l with state := .online, quiet := 0 }) (by simp) _

theorem arrive_port_of_known {l : Link} {s : State} (h : (s.port l).state ≠ .offline) :
    (arrive l s).port l = { s.port l with state := .online, quiet := 0 } := by
  unfold arrive
  rw [if_neg h, comeOnline, port_modPort]

theorem ownedTags_regions (l : Link) (rs : List RuntimeRecord) :
    ownedTags l (rs.map (·.region)) = (rs.filter (fun r => r.region.owner = some l)).map (·.region.tag) := by
  simp only [ownedTags, List.filter_map, List.map_map, Function.comp_def]

/-- The link of a COMMAND packet: a command that uses the slot, one taken whatever it holds, or a PORT-RESET. -/
theorem commandLink_cases {i : Instr} {l : Link} (h : commandLink i = some l) :
    (∃ tag c, slotUser i = some (l, tag, c)) ∨ immediateLink i = some l ∨ ∃ tag, i = .portReset l tag := by
  cases i <;> cases h <;> simp [slotUser, immediateLink]

theorem levelAfter_of_immediate {i : Instr} {l : Link} (h : immediateLink i = some l) (level : Bool) :
    levelAfter i level = level := by
  cases i <;> cases h <;> rfl

/-- The arrival of a command that brings a level of CUTOFF with it. -/
theorem arrive_withCutoffInput_sameBut (l : Link) (level : Bool) (s : State) :
    SameBut [.cutoffInput, .port l] s (arrive l { s with cutoffInput := level }) :=
  ((withCutoffInput_sameBut level s).mono (by simp)).trans ((arrive_sameBut l _).mono (by simp))

/-- What a COMMAND packet that finds no room leaves: its arrival, counted OVERRUN. -/
theorem countOn_arrive_overrun (l : Link) (level : Bool) (s : State) :
    SameBut [.cutoffInput, .port l] s (countOn l .overrun 1 (arrive l { s with cutoffInput := level }))
      ∧ (countOn l .overrun 1 (arrive l { s with cutoffInput := level })).cutoffInput = level
      ∧ (countOn l .overrun 1 (arrive l { s with cutoffInput := level })).port l
        = Port.count .overrun 1 ((arrive l s).port l) := by
  refine ⟨(arrive_withCutoffInput_sameBut l level s).count (by simp) _, ?_, ?_⟩
  · exact arrive_cutoffInput { s with cutoffInput := level } l
  · rw [countOn_port, arrive_withCutoffInput_port]

/-- A COMMAND packet that finds 8 responses unsent is its arrival, counted OVERRUN. -/
theorem exec_command_full {i : Instr} {l : Link} {s : State} (hi : commandLink i = some l) (hs : TakesPackets s)
    (hfull : 8 ≤ (s.port l).responses.length) :
    exec i s = .next (countOn l .overrun 1 (arrive l { s with cutoffInput := levelAfter i s.cutoffInput })) := by
  obtain ⟨tag, c, hc⟩ | hc | ⟨tag, rfl⟩ := commandLink_cases hi
  · rw [exec_slotUser hc, unlessHeld_running hs]
    exact congrArg Host.Outcome.next
      (takeCommand_full (s := { s with cutoffInput := levelAfter i s.cutoffInput }) hs hfull _)
  · rw [exec_immediate hc, takeCommand_full hs hfull, levelAfter_of_immediate hc]
  · rw [exec_portReset, unlessHeld_running hs, portResetBody,
      if_pos (show noRoom l s = true from decide_eq_true hfull)]
    rfl

/-- Settles O49: the arrival by whether the port was OFFLINE, then the checks of R151 in their order. -/
theorem commandsAreTakenInOrder : Obligations.CommandsAreTakenInOrder := by
  refine ⟨fun l s => ⟨arrive_sameBut _ _, arrive_port_of_known, fun h => ?_⟩, fun c l s hc hs hfull => ?_,
    fun l tag code s hs => ?_, fun c l tag name r s hc hs hslot => ?_⟩
  · rw [← ownedTags_regions]
    exact arrive_port_of_offline h
  · exact ⟨_, exec_command_full hc hs hfull, countOn_arrive_overrun l _ s⟩
  · refine ⟨_, exec_immediate (l := l) rfl s, ?_⟩
    rw [takeCommand_taken hs]
    refine ⟨(arrive_sameBut l s).trans (respond_sameBut l _ _ _ _ _), ?_⟩
    simp [immediateEffect]
  · refine ⟨_, exec_slotUser hc s, ?_⟩
    have hbusy := slotCommand_busy (s := { s with cutoffInput := levelAfter c s.cutoffInput }) hs hslot tag name
      (slotEffect c)
    rw [unlessHeld_running hs.1, hbusy]
    refine ⟨(arrive_withCutoffInput_sameBut l _ s).answer (by simp) _ _ _ _, ?_,
      answersWith_answer (arrive_withCutoffInput_port l s _) _ _ _ _⟩
    exact arrive_cutoffInput { s with cutoffInput := levelAfter c s.cutoffInput } l

/-! ## PORT-RESET (R156) -/

/-- The state that a PORT-RESET leaves before its response: its effects, and the CURRENT notice of a port that was
OFFLINE. -/
def portResetTold (l : Link) (s : State) : State :=
  if (s.port l).state = .offline then notify l (currentNotice l (portResetEffects l s)) (portResetEffects l s)
  else portResetEffects l s

theorem portResetTold_sameBut (l : Link) (s : State) : SameBut [.port l] (portResetEffects l s) (portResetTold l s) := by
  unfold portResetTold
  split
  · exact notify_sameBut _ _ _
  · exact SameBut.refl _ _

theorem portResetEffects_port (l : Link) (s : State) : (portResetEffects l s).port l = resetPort (s.port l) :=
  PerLink.get_set_same _ _ _

theorem portResetTold_port (l : Link) (s : State) : (portResetTold l s).port l = { resetPort (s.port l) with
    notices := if (s.port l).state = .offline then [currentNotice l (portResetEffects l s)] else [] } := by
  unfold portResetTold
  split
  · rw [notify_port, portResetEffects_port, handed_of_not_offline (by simp [resetPort])]
    exact placeKeep_of_room (by simp [resetPort])
  · exact portResetEffects_port l s

theorem portResetEffect_eq (l : Link) (tag : Byte) (s : State) :
    portResetEffect l tag s = answer l tag .portReset .ok .none (portResetTold l s) := rfl

/-- A PORT-RESET's response and notice leave the rest as its effects made it. -/
theorem portResetEffect_rest (l : Link) (tag : Byte) (s : State) :
    SameBut [.port l] (portResetEffects l s) (portResetEffect l tag s) :=
  (portResetTold_sameBut l s).trans (answer_sameBut _ _ _ _ _ _)

/-- A CURRENT notice is about the engine, the scan and the posture. -/
theorem currentNotice_congr {s t : State} (l : Link) (he : t.engine = s.engine) (hs : t.scan = s.scan)
    (hp : t.posture = s.posture) : currentNotice l t = currentNotice l s := by
  simp only [currentNotice, he, hs, hp]

theorem portResetEffect_port (l : Link) (tag : Byte) (s : State) : (portResetEffect l tag s).port l =
    { resetPort (s.port l) with
      notices := if (s.port l).state = .offline then [currentNotice l (portResetEffect l tag s)] else []
      responses := (s.port l).responses ++ [{ tag := tag, code := 0x63, status := .ok, results := .none }] } := by
  have hrest := portResetEffect_rest l tag s
  rw [currentNotice_congr l (hrest.engine (by simp)) (hrest.scan (by simp)) (hrest.posture (by simp)),
    portResetEffect_eq, answer_port, portResetTold_port]
  rfl

/-- What a PORT-RESET makes of an acknowledgement and of ARMED. -/
theorem withdrawAck_eq (l : Link) (p : Pending) : ∃ armed, withdrawAck l p = { p with
      requester := if p.requester = some l then none else p.requester
      acked := p.acked.set l false
      armed := armed }
    ∧ (p.acked.get l = false → armed = p.armed)
    ∧ (p.acked.get l = true → p.ackSet ≠ ⟨false, false⟩ → armed = false)
    ∧ (p.acked.get l = true → p.ackSet = ⟨false, false⟩ → armed = p.armed) := by
  unfold withdrawAck
  dsimp only
  split
  · next hacked =>
    refine ⟨_, rfl, fun h => absurd hacked (by simp [h]), fun _ hset => ?_, fun _ hset => ?_⟩
    · rw [Bool.eq_false_iff.mpr (mt (not_nonempty_iff p.ackSet).mp hset), Bool.and_false]
    · rw [(not_nonempty_iff p.ackSet).mpr hset, Bool.and_true]
  · next hacked =>
    have hfalse : p.acked.get l = false := by simpa using hacked
    refine ⟨p.armed, ?_, fun _ => rfl, fun h => absurd h hacked, fun h => absurd h hacked⟩
    rw [show p.acked.set l false = p.acked from hfalse ▸ PerLink.set_get p.acked l]

theorem discardOf_bound {l : Link} {x : Contact} (h : ∃ g u v, x = .bound g l u v) : discardOf l x = .discard := by
  obtain ⟨g, u, v, rfl⟩ := h
  exact if_pos rfl

theorem discardOf_other {l : Link} {x : Contact} (h : ∀ g u v, x ≠ .bound g l u v) : discardOf l x = x := by
  cases x with
  | free => rfl
  | discard => rfl
  | bound g owner u v => exact if_neg fun howner => h g u v (by rw [howner])

/-- Settles O50: the effects block by block, under the notice and the response that the port is given. -/
theorem portResetClearsItsLink : Obligations.PortResetClearsItsLink := by
  intro l tag s hs
  have hexec : exec (.portReset l tag) s = .next (portResetEffect l tag s) := by
    have hroom : noRoom l s = false := decide_eq_false (Nat.not_le.mpr hs.2)
    rw [exec_portReset, unlessHeld_running hs.1, portResetBody, hroom]
    rfl
  have hrest := portResetEffect_rest l tag s
  have htouch := hrest.touch (by simp)
  have hcontact (c : TouchId) :
      (portResetEffect l tag s).touch.contacts.get c = discardOf l (s.touch.contacts.get c) := by
    rw [htouch]
    exact discardContacts_get l _ c
  refine ⟨_, hexec, portResetEffect_sameBut _ _ _, portResetEffect_port l tag s, ?_, hrest.slots (by simp),
    ⟨_, hrest.engine (by simp), fun hp => by rw [hp]; rfl, fun p hp => ?_⟩, by rw [htouch]; rfl,
    fun c => ⟨fun hb => (hcontact c).trans (discardOf_bound hb), fun hb => (hcontact c).trans (discardOf_other hb)⟩⟩
  · rw [attn_eq_true_iff, portResetEffect_port]
    by_cases hoff : (s.port l).state = .offline <;> simp [hoff]
  · obtain ⟨armed, heq, hkeep⟩ := withdrawAck_eq l p
    exact ⟨armed, by rw [hp, Option.map_some, heq], hkeep⟩

/-! ## The sizes of what is sent (chapter 9) -/

@[simp] theorem byteOf_length (n : Nat) : (byteOf n).length = 1 := rfl
@[simp] theorem halfBytes_length (h : Half) : (halfBytes h).length = 2 := rfl
@[simp] theorem halfOfNat_length (n : Nat) : (halfOfNat n).length = 2 := rfl
@[simp] theorem wordBytes_length (w : Word) : (wordBytes w).length = 4 := rfl
@[simp] theorem epochBytes_length (e : Option Word) : (epochBytes e).length = 4 := rfl
@[simp] theorem colourBytes_length (c : Colour) : c.bytes.length = 3 := rfl
@[simp] theorem flagBytes_length (b : Bool) : (flagBytes b).length = 1 := by cases b <;> rfl
@[simp] theorem slotBytes_length (n : Option SlotNo) : (slotBytes n).length = 1 := by cases n <;> rfl
@[simp] theorem desiredBytes_length (d : Desired) : (desiredBytes d).length = 1 := by cases d <;> rfl
@[simp] theorem kindBytes_length (c : Content) : (kindBytes c).length = 1 := by cases c <;> rfl
@[simp] theorem bufferingBytes_length (c : Content) : (bufferingBytes c).length = 1 := by cases c <;> rfl
@[simp] theorem orientationBytes_length (o : Orientation) : (orientationBytes o).length = 1 := by cases o <;> rfl
@[simp] theorem touchBytes_length (t : TouchSetting) : (touchBytes t).length = 1 := by cases t <;> rfl
@[simp] theorem postureBytes_length (p : Posture) : (postureBytes p).length = 1 := by cases p <;> rfl
@[simp] theorem faceBytes_length (f : Face) : (faceBytes f).length = 1 := by cases f <;> rfl
@[simp] theorem sensorBytes_length (x : Sensor) : (sensorBytes x).length = 1 := by cases x <;> rfl
@[simp] theorem transitionBytes_length (t : TransitionState) : (transitionBytes t).length = 1 := by cases t <;> rfl
@[simp] theorem latchBytes_length (x : Latch) : (latchBytes x).length = 1 := by cases x <;> rfl
@[simp] theorem rateBytes_length (r : Rate) : (rateBytes r).length = 1 := rfl
@[simp] theorem slotUseBytes_length (u : SlotUse) : (slotUseBytes u).length = 1 := by cases u <;> rfl
@[simp] theorem membershipBytes_length (m : Membership) : (membershipBytes m).length = 1 := by cases m <;> rfl
@[simp] theorem gateBytes_length (g : Gate) : (gateBytes g).length = 1 := by cases g <;> rfl
@[simp] theorem backStateBytes_length (b : BackState) : (backStateBytes b).length = 1 := by cases b <;> rfl
@[simp] theorem labelBytes_length (x : Label) : (labelBytes x).length = 1 := by cases x <;> rfl

@[simp] theorem ownerBytes_length (o : Option Link) : (ownerBytes o).length = 1 := by
  rcases o with - | (- | -) <;> rfl

/-- A list of fixed-size records takes their number times the size. -/
theorem flatMap_length_of_size {α : Type} {f : α → List Byte} {n : Nat} (h : ∀ x, (f x).length = n) (xs : List α) :
    (xs.flatMap f).length = n * xs.length := by
  simp [List.length_flatMap, h, Nat.mul_comm]

@[simp] theorem tagListBytes_length (ts : List Nat) : (tagListBytes ts).length = 9 := by simp [tagListBytes]

@[simp] theorem regionBytes_length (g : Region) : (regionBytes g).length = 17 := by simp [regionBytes]

@[simp] theorem regionOrZeros_length (r : Option Region) : (regionOrZeros r).length = 17 := by
  cases r <;> simp [regionOrZeros]

@[simp] theorem slotReadBytes_length (i : SlotReadInfo) : (slotReadBytes i).length = 29 := by simp [slotReadBytes]

@[simp] theorem clearEntryBytes_length (e : ClearEntry) : (clearEntryBytes e).length = 5 := by
  cases hf : e.front <;> cases hb : e.back <;> simp [clearEntryBytes, hf, hb]

@[simp] theorem frontBytes_length (b : Buffers) : (frontBytes b).length = 4 := by simp [frontBytes]

@[simp] theorem backBytes_length (b : Buffers) : (backBytes b).length = 5 := by
  cases hb : b.back <;> simp [backBytes, hb]

@[simp] theorem runBytes_length (m : Membership) (b : Buffer) : (runBytes m b).length = 6 := by simp [runBytes]

@[simp] theorem runsBytes_length (m : Membership) (b : Buffers) : (runsBytes m b).length = 12 := by
  cases hb : b.back <;> simp [runsBytes, hb]

@[simp] theorem statusEntryBytes_length (e : StatusEntry) : (statusEntryBytes e).length = 30 := by
  cases hb : e.buffers <;> simp [statusEntryBytes, hb]

@[simp] theorem summaryBytes_length (x : StoreSummary) : (summaryBytes x).length = 9 := by
  cases hl : x.longest <;> simp [summaryBytes, hl]

@[simp] theorem currentBytes_length (i : CurrentInfo) : (currentBytes i).length = 31 := by simp [currentBytes]

@[simp] theorem noticeBytes_length (n : Notice) : (noticeBytes n).length = 32 := by simp [noticeBytes]

theorem noticeBytes_current (i : CurrentInfo) : noticeBytes (.current i) = 0x01 :: currentBytes i :=
  List.take_left' (by simp [noticeFields])

/-! ## STATUS, FETCH and the responses sent (R152, R163, R166) -/

theorem sendResponse_none {l : Link} {s : State} (h : (s.port l).responses = []) : sendResponse l s = s := by
  simp only [sendResponse, h]

theorem sendResponse_some {l : Link} {s : State} {r : Response} {rs : List Response}
    (h : (s.port l).responses = r :: rs) :
    (sendResponse l s).port l = { s.port l with responses := rs }
      ∧ (sendResponse l s).outputs = { s.outputs with sent := s.outputs.sent.set l (responsePacket r) } := by
  simp only [sendResponse, h]
  exact ⟨PerLink.get_set_same _ _ _, rfl⟩

/-- Settles O51: STATUS and FETCH behind their arrival, the sizes of the lists a response holds, and the oldest response
leaving the port. -/
theorem statusFetchAndResponsesSent : Obligations.StatusFetchAndResponsesSent := by
  refine ⟨fun l tag s hs => ?_, fun l tag s hs => ?_, fun r => ?_, noticeBytes_length, noticeBytes_current,
    regionBytes_length, fun l s hs => ⟨fun hnone => ?_, fun r rs hsome => ?_⟩⟩
  · refine ⟨_, exec_immediate (l := l) rfl s, ?_⟩
    rw [takeCommand_taken hs]
    refine ⟨(arrive_sameBut l s).trans (statusEffect_sameBut _ _ _), ?_⟩
    simp [immediateEffect, statusEffect, statusInfo, pendingEpoch, moveCount, commandCode, Counters.zero]
  · refine ⟨_, exec_immediate (l := l) rfl s, ?_⟩
    rw [takeCommand_taken hs]
    have hport : (fetchEffect l tag (arrive l s)).port l = { (arrive l s).port l with
        notices := ((arrive l s).port l).notices.drop 8
        responses := ((arrive l s).port l).responses ++ [
          { tag := tag, code := 0x65, status := .ok
            results := .notices (((arrive l s).port l).notices.take 8) (((arrive l s).port l).notices.length - 8) }] } := by
      simp [fetchEffect, Config.fetchMost, commandCode]
    refine ⟨(arrive_sameBut l s).trans (fetchEffect_sameBut _ _ _), hport, ?_⟩
    rw [attn_eq_true_iff]
    refine (not_congr (congrArg Port.notices hport ▸ List.drop_eq_nil_iff)).trans Nat.not_le
  · refine ⟨rfl, fun h => ?_, fun ns left h => ⟨?_, ?_⟩, fun es h => ?_, fun es x h => ?_, fun info h => ?_⟩
    · simp [h, resultsBytes]
    · simp [h, resultsBytes, flatMap_length_of_size noticeBytes_length]
      omega
    · exact ⟨_, _, by rw [h]; rfl, rfl, rfl⟩
    · simp [h, resultsBytes, flatMap_length_of_size clearEntryBytes_length]
      omega
    · simp [h, resultsBytes, flatMap_length_of_size statusEntryBytes_length]
      omega
    · simp [h, resultsBytes]
  · exact (congrArg Host.Outcome.next (unlessHeld_running hs _)).trans
      (congrArg Host.Outcome.next (sendResponse_none hnone))
  · exact ⟨_, congrArg Host.Outcome.next (unlessHeld_running hs _), sendResponse_sameBut _ _, sendResponse_some hsome⟩

end Sys2Proof.Machine
end

section
/-! PROOFS. Bytes on a link's forward direction (R145, R168, R169): one packet taken off the head of them, what each
check makes of it, and the packet that a command is. -/

namespace Sys2Proof.Machine

/-! ## One packet of the bytes -/

/-- A packet that is not incomplete takes bytes with it. -/
theorem afterPacket_length {cutoff : Bool} {l : Link} {bytes : List Byte} (h : verdict cutoff l bytes ≠ .incomplete) :
    (afterPacket bytes).length < bytes.length := by
  unfold verdict at h
  split at h
  · next kind flags n1 n0 rest =>
    simp only [afterPacket]
    split <;> simp only [List.length_cons, List.length_drop] <;> omega
  · exact absurd rfl h

theorem receive_incomplete {l : Link} {bytes : List Byte} {s : State}
    (h : verdict s.cutoffInput l bytes = .incomplete) (fuel : Nat) : receive l fuel bytes s = s := by
  cases fuel with
  | zero => rfl
  | succ fuel => simp only [receive, h]

theorem receive_succ {l : Link} {bytes : List Byte} {s : State} (h : verdict s.cutoffInput l bytes ≠ .incomplete)
    (fuel : Nat) : receive l (fuel + 1) bytes s =
      receive l fuel (afterPacket bytes) (receiveOne l (verdict s.cutoffInput l bytes) s) := by
  rw [receive]
  split
  · next hv => exact absurd hv h
  · rfl

/-- More packets are never found than there are bytes. -/
theorem receive_fuel (l : Link) (n : Nat) : ∀ (bytes : List Byte) (s : State), bytes.length ≤ n →
    receive l n bytes s = receive l bytes.length bytes s := by
  induction n using Nat.strong_induction_on with
  | _ n ih =>
    intro bytes s hn
    by_cases hv : verdict s.cutoffInput l bytes = .incomplete
    · rw [receive_incomplete hv, receive_incomplete hv]
    · have hafter := afterPacket_length hv
      obtain ⟨k, hk⟩ : ∃ k, bytes.length = k + 1 := Nat.exists_eq_succ_of_ne_zero (by omega)
      obtain ⟨m, rfl⟩ : ∃ m, n = m + 1 := Nat.exists_eq_succ_of_ne_zero (by omega)
      rw [hk, receive_succ hv, receive_succ hv, ih m (by omega) _ _ (by omega)]
      by_cases hkm : k = m
      · rw [hkm, ih m (by omega) _ _ (by omega)]
      · rw [ih k (by omega) _ _ (by omega)]

/-- The first packet is taken by its verdict, and then the bytes behind it. -/
theorem receive_packet {l : Link} {bytes : List Byte} {s : State} {v : Verdict}
    (hv : verdict s.cutoffInput l bytes = v) (h : v ≠ .incomplete) :
    receive l bytes.length bytes s = receive l (afterPacket bytes).length (afterPacket bytes) (receiveOne l v s) := by
  subst hv
  have hafter := afterPacket_length h
  obtain ⟨k, hk⟩ : ∃ k, bytes.length = k + 1 := Nat.exists_eq_succ_of_ne_zero (by omega)
  rw [hk, receive_succ h, receive_fuel l k _ _ (by omega)]

theorem exec_badPacket {l : Link} {s : State} (hs : TakesPackets s) (bytes : List Byte) :
    exec (.badPacket l bytes) s = .next (receive l bytes.length bytes s) :=
  congrArg Host.Outcome.next (unlessHeld_running hs _)

theorem exec_badPacket_incomplete {l : Link} {bytes : List Byte} {s : State} (hs : TakesPackets s)
    (h : verdict s.cutoffInput l bytes = .incomplete) : exec (.badPacket l bytes) s = .next s := by
  rw [exec_badPacket hs, receive_incomplete h]

/-- The first packet of the bytes, then the bytes behind it as bytes of their own. -/
theorem exec_badPacket_packet {l : Link} {bytes rest : List Byte} {s : State} {v : Verdict} (hs : TakesPackets s)
    (hv : verdict s.cutoffInput l bytes = v) (h : v ≠ .incomplete) (hrest : afterPacket bytes = rest)
    (ht : TakesPackets (receiveOne l v s)) :
    exec (.badPacket l bytes) s = exec (.badPacket l rest) (receiveOne l v s) := by
  rw [exec_badPacket hs, exec_badPacket ht, receive_packet hv h, hrest]

/-! ## The checks of R145, one by one -/

theorem verdict_longHeader (cutoff : Bool) (l : Link) (kind flags : Byte) {n1 n0 : Byte} (rest : List Byte)
    (h : 7452 < (halfOf n1 n0).toNat) :
    verdict cutoff l (kind :: flags :: n1 :: n0 :: rest) = .longHeader
      ∧ afterPacket (kind :: flags :: n1 :: n0 :: rest) = rest :=
  ⟨if_pos h, if_pos h⟩

theorem verdict_shortHeader (cutoff : Bool) (l : Link) {bytes : List Byte} (h : bytes.length < 4) :
    verdict cutoff l bytes = .incomplete := by
  unfold verdict
  split
  · simp only [List.length_cons] at h
    omega
  · rfl

theorem verdict_shortPayload (cutoff : Bool) (l : Link) (kind flags : Byte) {n1 n0 : Byte} {rest : List Byte}
    (hn : (halfOf n1 n0).toNat ≤ 7452) (h : rest.length < (halfOf n1 n0).toNat + 2) :
    verdict cutoff l (kind :: flags :: n1 :: n0 :: rest) = .incomplete :=
  (if_neg (Nat.not_lt.mpr hn)).trans (if_pos h)

/-- A two-byte field is one of two bytes exactly when they are its bytes. -/
theorem bytes_eq_halfBytes_iff (c1 c0 : Byte) (h : Half) : [c1, c0] = halfBytes h ↔ halfOf c1 c0 = h := by
  constructor
  · intro heq
    simp only [halfBytes, List.cons.injEq, and_true] at heq
    obtain ⟨hhi, hlo⟩ := heq
    rw [hhi, hlo, halfOf_bytes]
  · rintro rfl
    simp only [halfBytes, halfOf, List.cons.injEq, and_true]
    exact ⟨(BitVec.extractLsb'_append_eq_left).symm, (BitVec.extractLsb'_append_eq_right).symm⟩

section
variable {n1 n0 : Byte} {payload : List Byte} (hlen : payload.length = (halfOf n1 n0).toNat)
  (hmax : payload.length ≤ 7452) (cutoff : Bool) (l : Link) (kind flags c1 c0 : Byte) (after : List Byte)
include hlen hmax

theorem afterPacket_body : afterPacket (kind :: flags :: n1 :: n0 :: payload ++ c1 :: c0 :: after) = after := by
  simp only [List.cons_append, afterPacket]
  rw [if_neg (Nat.not_lt.mpr (hlen ▸ hmax)), ← hlen, ← List.drop_drop, List.drop_left' rfl]
  rfl

/-- A whole packet is judged by its CRC, and then by its kind, flags and payload. -/
theorem verdict_body : verdict cutoff l (kind :: flags :: n1 :: n0 :: payload ++ c1 :: c0 :: after) =
    if halfOf c1 c0 ≠ crc (kind :: flags :: n1 :: n0 :: payload) then .badCrc
    else classify cutoff l kind flags payload := by
  simp only [List.cons_append, verdict]
  rw [if_neg (Nat.not_lt.mpr (hlen ▸ hmax)), ← hlen, if_neg (by simp), List.take_left' rfl, List.drop_left' rfl]
  exact if_congr (not_congr (bytes_eq_halfBytes_iff c1 c0 _)) rfl rfl

end

theorem classify_of_undefined {kind flags : Byte}
    (h : ¬ ((kind = 1 ∧ flags = 0) ∨ (kind = 2 ∧ flags = 0) ∨ (kind = 3 ∧ (flags = 0 ∨ flags = 1)))) (cutoff : Bool)
    (l : Link) (payload : List Byte) : classify cutoff l kind flags payload = .malformed := by
  obtain ⟨hcommand, hline, hmark⟩ := not_or.mp h |>.imp_right not_or.mp
  exact (if_neg hcommand).trans ((if_neg hline).trans (if_neg hmark))

theorem classify_command_short {payload : List Byte} (h : payload.length < 2) (cutoff : Bool) (l : Link) :
    classify cutoff l 1 0 payload = .malformed := by
  rcases payload with - | ⟨a, - | ⟨b, rest⟩⟩
  · rfl
  · rfl
  · simp only [List.length_cons] at h
    omega

theorem classify_mark_wrong {payload : List Byte} {flags : Byte} (h : payload.length ≠ 5)
    (hflags : flags = 0 ∨ flags = 1) (cutoff : Bool) (l : Link) :
    classify cutoff l 3 flags payload = .malformed := by
  refine (if_neg (by simp)).trans ((if_neg (by simp)).trans ((if_pos ⟨rfl, hflags⟩).trans ?_))
  split
  · exact absurd rfl h
  · rfl

theorem classify_line_wrong {payload : List Byte}
    (h : payload.length < 12 ∨ payload.length ≠ 12 + 3 * (halfOf (payload.getD 10 0) (payload.getD 11 0)).toNat)
    (cutoff : Bool) (l : Link) : classify cutoff l 2 0 payload = .malformed := by
  refine (if_neg (by simp)).trans ((if_pos ⟨rfl, rfl⟩).trans ?_)
  split
  · next tag ft e3 e2 e1 e0 r1 r0 o1 o0 c1 c0 px =>
    refine if_neg fun hpx => ?_
    simp only [List.length_cons] at h
    have hcount : (halfOf ((tag :: ft :: e3 :: e2 :: e1 :: e0 :: r1 :: r0 :: o1 :: o0 :: c1 :: c0 :: px).getD 10 0)
      ((tag :: ft :: e3 :: e2 :: e1 :: e0 :: r1 :: r0 :: o1 :: o0 :: c1 :: c0 :: px).getD 11 0)) = halfOf c1 c0 := rfl
    rw [hcount] at h
    omega
  · rfl

theorem commandOfCode_commandCode (c : Command) : commandOfCode (commandCode c) = some c := by
  cases c <;> rfl

/-- What a COMMAND packet of a known code is. -/
theorem classify_command (cutoff : Bool) (l : Link) (tag : Byte) (c : Command) (params : List Byte) :
    (∀ i, decodeParams cutoff l tag c params = some i →
        classify cutoff l 1 0 (tag :: commandCode c :: params) = .valid i)
      ∧ (decodeParams cutoff l tag c params = none →
        classify cutoff l 1 0 (tag :: commandCode c :: params) = .wrongLength) := by
  constructor <;> intros <;> simp only [classify, commandOfCode_commandCode, *] <;> rfl

/-- A payload that fits no kind is MALFORMED (checks 3 and 4). -/
theorem classify_malformed {kind flags : Byte} {payload : List Byte}
    (h : ¬ ((kind = 1 ∧ flags = 0) ∨ (kind = 2 ∧ flags = 0) ∨ (kind = 3 ∧ (flags = 0 ∨ flags = 1)))
      ∨ (kind = 1 ∧ payload.length < 2) ∨ (kind = 3 ∧ payload.length ≠ 5)
      ∨ (kind = 2 ∧ (payload.length < 12
          ∨ payload.length ≠ 12 + 3 * (halfOf (payload.getD 10 0) (payload.getD 11 0)).toNat))) (cutoff : Bool)
    (l : Link) : classify cutoff l kind flags payload = .malformed := by
  by_cases hdef : (kind = 1 ∧ flags = 0) ∨ (kind = 2 ∧ flags = 0) ∨ (kind = 3 ∧ (flags = 0 ∨ flags = 1))
  · replace h := h.resolve_left (not_not_intro hdef)
    obtain ⟨rfl, rfl⟩ | ⟨rfl, rfl⟩ | ⟨rfl, hflags⟩ := hdef
    · exact classify_command_short (by simpa using h) cutoff l
    · exact classify_line_wrong (by simpa using h) cutoff l
    · exact classify_mark_wrong (by simpa using h) hflags cutoff l
  · exact classify_of_undefined hdef cutoff l payload

/-! ## Bad packets (R145, R151) -/

theorem wrongLength_taken {l : Link} {s : State} (h : TakesCommand l s) :
    wrongLength l s = countOn l .malformed 1 (arrive l s) := takeCommand_taken h _

theorem wrongLength_full {l : Link} {s : State} (hs : TakesPackets s) (h : 8 ≤ (s.port l).responses.length) :
    wrongLength l s = countOn l .overrun 1 (arrive l s) := takeCommand_full hs h _

/-- Settles O53: the checks in their order; each packet that is whole completes by itself, the bytes behind it taken
then. -/
theorem badPacketsAreCounted : Obligations.BadPacketsAreCounted := by
  intro l s hs
  have hcounted (k : CounterName) : TakesPackets (countOn l k 1 s) := hs
  have harrived (k : CounterName) : TakesPackets (countOn l k 1 (arrive l s)) := (arrive_phase s l).trans hs
  have hnone {u : State} (hu : TakesPackets u) : exec (.badPacket l []) u = .next u := exec_badPacket_incomplete hu rfl
  refine ⟨fun kind flags n1 n0 hn => ?_, fun bytes hb => exec_badPacket_incomplete hs (verdict_shortHeader _ l hb),
    fun kind flags n1 n0 rest hn hrest => exec_badPacket_incomplete hs (verdict_shortPayload _ l kind flags hn hrest),
    fun kind flags n1 n0 c1 c0 payload hlen hmax => ?_⟩
  · have hlong (rest : List Byte) : exec (.badPacket l (kind :: flags :: n1 :: n0 :: rest)) s =
        exec (.badPacket l rest) (countOn l .malformed 1 s) := by
      obtain ⟨hv, hrest⟩ := verdict_longHeader s.cutoffInput l kind flags rest hn
      exact exec_badPacket_packet hs hv nofun hrest (hcounted _)
    exact ⟨(hlong []).trans (hnone (hcounted _)), hlong⟩
  · intro body leaves
    have hleaves {v : Verdict} {u : State} (hu : receiveOne l v s = u) (ht : TakesPackets u) (h : v ≠ .incomplete)
        (hv : ∀ after, verdict s.cutoffInput l (body ++ c1 :: c0 :: after) = v) : leaves u := by
      subst hu
      have hafter (after : List Byte) :=
        exec_badPacket_packet hs (hv after) h (afterPacket_body hlen hmax kind flags c1 c0 after) ht
      exact ⟨(hafter []).trans (hnone ht), hafter⟩
    have hverdict := verdict_body hlen hmax s.cutoffInput l kind flags c1 c0
    refine ⟨fun hcrc => hleaves (v := .badCrc) rfl (hcounted .crcErrors) nofun fun after =>
      (hverdict after).trans (if_pos hcrc),
      fun hcrc => ?_⟩
    have hclass (after : List Byte) := (hverdict after).trans (if_neg (not_not_intro hcrc))
    refine ⟨fun hbad => hleaves (v := .malformed) rfl (hcounted .malformed) nofun fun after =>
      (hclass after).trans (classify_malformed hbad _ l), fun tag c params hkind hflags hpayload hdecode => ?_⟩
    subst hkind hflags hpayload
    have hwrong (after : List Byte) :=
      (hclass after).trans ((classify_command s.cutoffInput l tag c params).2 (hdecode _))
    exact ⟨fun hroom => hleaves (v := .wrongLength) (wrongLength_taken hroom) (harrived _) nofun hwrong,
      fun hfull => hleaves (v := .wrongLength) (wrongLength_full hs hfull) (harrived _) nofun hwrong⟩

/-! ## The packet that a command is (sections 9.2 to 9.4) -/

/-- Bytes are one forward packet that spells a command, with RESUME's level of CUTOFF. -/
def Spells (cutoff : Bool) (l : Link) (bytes : List Byte) (i : Instr) : Prop :=
  ∃ kind flags payload, bytes = framePacket kind flags payload ∧ payload.length ≤ 7452
    ∧ classify cutoff l kind flags payload = .valid i

theorem Spells.verdict {cutoff : Bool} {l : Link} {bytes : List Byte} {i : Instr} (h : Spells cutoff l bytes i)
    (rest : List Byte) : verdict cutoff l (bytes ++ rest) = .valid i ∧ afterPacket (bytes ++ rest) = rest := by
  obtain ⟨kind, flags, payload, rfl, hlen, hclass⟩ := h
  exact hclass ▸ verdict_framePacket cutoff l kind flags payload rest hlen

theorem spells_command {cutoff : Bool} {l : Link} {tag : Byte} {c : Command} {params : List Byte} {i : Instr}
    (hlen : params.length ≤ 17) (h : decodeParams cutoff l tag c params = some i) :
    Spells cutoff l (commandPacket c tag params) i :=
  ⟨1, 0, _, rfl, by simp only [List.length_cons]; omega, (classify_command cutoff l tag c params).1 i h⟩

theorem spells_unknownCommand (cutoff : Bool) (l : Link) (tag : Byte) {code : Byte} (h : unknownCode code = true) :
    Spells cutoff l (framePacket 0x01 0x00 [tag, code]) (.unknownCommand l tag code) := by
  refine ⟨1, 0, _, rfl, by simp, ?_⟩
  simp only [classify, Option.isNone_iff_eq_none.mp h]
  rfl

theorem spells_line (cutoff : Bool) (l : Link) {p : Line} (h : p.wellFormed = true) :
    Spells cutoff l (framePacket 0x02 0x00 p.bytes) (.line l p) := by
  have hlen : p.pixels.length ≤ 2480 := of_decide_eq_true h
  refine ⟨2, 0, _, rfl, ?_, ?_⟩
  · simp only [Line.bytes, List.length_append, bytes_length, wordBytes_length, halfBytes_length, List.length_cons,
      List.length_nil]
    omega
  · have hcount : (BitVec.ofNat 16 p.pixels.length).toNat = p.pixels.length := by
      rw [BitVec.toNat_ofNat]
      omega
    simp [classify, Line.bytes, wordBytes, halfBytes, halfOf_bytes, wordOf_bytes, pixelsOf_bytes, hcount,
      Nat.mul_comm]

theorem spells_mark (cutoff : Bool) (l : Link) (tag : Byte) (epoch : Word) :
    Spells cutoff l (framePacket 0x03 0x00 (tag :: wordBytes epoch)) (.beginMark l tag epoch)
      ∧ Spells cutoff l (framePacket 0x03 0x01 (tag :: wordBytes epoch)) (.endMark l tag epoch) := by
  constructor <;> refine ⟨3, _, _, rfl, by simp, ?_⟩ <;> simp [classify, wordBytes, wordOf_bytes]

/-- The encoding of a command spells it, with every field. -/
theorem encodePacket_spells {i : Instr} {l : Link} {bytes : List Byte} {cutoff : Bool} (hwf : i.wellFormed = true)
    (hl : packetLink i = some l) (hb : encodePacket i = some bytes) (hlevel : carriesLevel cutoff i = true) :
    Spells cutoff l bytes i := by
  cases i <;> cases hl <;> cases hb
  case line p => exact spells_line cutoff l hwf
  case beginMark tag epoch => exact (spells_mark cutoff l tag epoch).1
  case endMark tag epoch => exact (spells_mark cutoff l tag epoch).2
  case unknownCommand tag code => exact spells_unknownCommand cutoff l tag hwf
  case resume tag level => exact spells_command (by simp) (by rw [← eq_of_beq hlevel]; rfl)
  all_goals
    refine spells_command (by simp [RegionRecord.bytes, HingeFields.bytes]) ?_
    simp [decodeParams, RegionRecord.bytes, HingeFields.bytes, Colour.bytes, halfBytes, wordBytes, halfOf_bytes,
      wordOf_bytes]

theorem takenInReset_of_packet {i : Instr} {l : Link} (h : packetLink i = some l) : takenInReset i = false := by
  cases i <;> first | rfl | exact absurd h.symm (Option.some_ne_none _)

/-- Settles O54: the encoding of a command spells it, and bytes that spell one command and end there are that
command. -/
theorem packetDecodesToItsCommand : Obligations.PacketDecodesToItsCommand := by
  intro i l bytes cutoff hwf hl hb hlevel
  have hspells := encodePacket_spells hwf hl hb hlevel
  refine ⟨hspells.verdict, fun s hcutoff => ?_⟩
  subst hcutoff
  by_cases hs : TakesPackets s
  · obtain ⟨hv, hafter⟩ := List.append_nil bytes ▸ hspells.verdict []
    obtain ⟨m, -, hrun⟩ | ⟨hnone, -⟩ := runPacket_eq i s
    · rw [exec_badPacket hs, receive_packet hv nofun, hafter, receive_incomplete rfl, hrun]
      rfl
    · exact absurd (hl.symm.trans hnone) (Option.some_ne_none _)
  · rw [exec_inReset hs (takenInReset_of_packet hl), exec_inReset hs rfl]

end Sys2Proof.Machine
end
